-- ==== Sys2Proof/Word.lean ====
section
/-! DEFINITION. The word types of IRCODEC (R9, R10): bit 0 is the least significant bit, every value is unsigned. -/

namespace Sys2Proof

/-- A register of the host interface, a CMD word, a decoded value: 32 bits (R9). -/
abbrev Word := BitVec 32

/-- A pulse-buffer entry or the duration counter: 16 bits unsigned (R9). -/
abbrev Ticks := BitVec 16

/-- A byte of a laid-out word or of the serial line. -/
abbrev Byte := BitVec 8

/-- A byte offset in the 4096-byte register window (R80). -/
abbrev Offset := BitVec 12

/-- A host access descriptor: SIZE [14:13], W [12], OFFSET [11:0] (R100). -/
abbrev Descriptor := BitVec 15

/-- A mark is level 1, a space level 0 (R17). -/
abbrev Level := Bool

end Sys2Proof
end

