-- ==== Sys2Proof/Config.lean ====
section
/-! DEFINITION. What an implementation fixes (R7, R8), the constants the spec fixes, and the free values. -/

namespace Sys2Proof

/-- The 14 protocols other than Unknown and NEC, in the order of R104. -/
inductive OtherProtocol where
  | sony | rc5 | rc6 | dish | sharp | jvc | sanyo | mitsubishi | samsung | lg | whynter | aiwaRCT501 | panasonic | denon
  deriving DecidableEq, Repr

/-- The protocols of a decoded signal (R104). -/
inductive Protocol where
  | unknown
  | nec
  | other (p : OtherProtocol)
  deriving DecidableEq, Repr

/-- The 14 in the enumeration order of R104, Sony first and Denon last. -/
def OtherProtocol.all : List OtherProtocol :=
  [.sony, .rc5, .rc6, .dish, .sharp, .jvc, .sanyo, .mitsubishi, .samsung, .lg, .whynter, .aiwaRCT501, .panasonic, .denon]

/-- What a matcher gives back: value, optional address, bit count (R8). The 8-bit count is R160(h). -/
structure Match where
  value    : Word
  address  : Option Word
  bitCount : BitVec 8
  deriving DecidableEq, Repr

/-- The mask OR-ed into every transmitted frame (R7, R192). -/
def Config.necInitMask : Word := 0x20DF0000#32

/-- The NEC base time unit in nanoseconds (R7, R190). -/
def Config.necUnitNs : Nat := 562500

/-- Which OTHER_MATCHERS the block was built with (R7, R8): the reference configuration, in which every matcher rejects,
or the free family number `k`. -/
inductive MatcherFamily where
  | rejectAll
  | family (k : Nat)
  deriving DecidableEq, Repr

/-- The build parameters of R7, R8 and R250: plain data, carried by the state, changed by no step.
A statement over states is thereby a statement over every value of every parameter (log 1). -/
structure Params where
  usecPerTick   : Nat
  rawbuf        : Nat
  gapTicks      : Nat
  tolPct        : Nat
  minFrameLen   : Nat
  matcherOrder  : List OtherProtocol
  matchers      : MatcherFamily
  ircBase       : Nat
  rxBufferSize  : Nat
  deriving DecidableEq, Repr

/-- The constraints R7 puts on the parameters (R19 to R23; R250 for the host's line buffer). -/
abbrev Params.Valid (p : Params) : Prop :=
  1 ≤ p.usecPerTick
  ∧ (68 ≤ p.rawbuf ∧ p.rawbuf ≤ 512)
  ∧ (4500 + p.usecPerTick < p.gapTicks * p.usecPerTick ∧ p.gapTicks ≤ 65535)
  ∧ p.tolPct ≤ 33
  ∧ (1 ≤ p.minFrameLen ∧ p.minFrameLen ≤ 67)
  ∧ p.matcherOrder.Perm OtherProtocol.all
  ∧ p.ircBase % 4096 = 0
  ∧ 2 ≤ p.rxBufferSize

/-- The reference values of R7 (and 16 for RX_BUFFER_SIZE, which has none): DESIGN CHOICE, log 1. -/
def Params.reference : Params where
  usecPerTick  := 50
  rawbuf       := 100
  gapTicks     := 100
  tolPct       := 25
  minFrameLen  := 3
  matcherOrder := OtherProtocol.all
  matchers     := .rejectAll
  ircBase      := 0
  rxBufferSize := 16

/-- What the next entry of a train is to a protocol: a pulse of one of these nominal durations in nanoseconds, a pulse that
carries a bit, or nothing, the matcher having read all it reads. -/
inductive Slot where
  | pulse (nominalsNs : List Nat)
  | bit
  | stop
  deriving DecidableEq, Repr, Inhabited

/-- What an entry was read as: a pulse of a nominal duration, or a bit. -/
inductive Reading where
  | pulse (nominalNs : Nat)
  | bit (b : Bool)
  deriving DecidableEq, Repr

/-- What a protocol other than NEC defines, which its matcher's contract speaks of (R160). Which entry is what, `slot`, may
depend on the train's length and on what the entries after the header were read as so far. `valuePlaces` and `addressPlaces`
are the protocol's bit order: of `count` bits, where bit `index` stands in the value and in the address. R160 does not say
whether one bit may stand in both (C10: the address a half of the value word); here it may, and in neither (log 2). -/
structure MatcherFormat where
  headerMarkNs      : Nat
  headerSpaceNs     : Nat
  zeroNs            : Nat
  oneNs             : Nat
  /-- The bit of a duration exactly at the midpoint, which R160 does not state (log 2). -/
  midpointIsLonger  : Bool
  slot              : (length : Nat) → (read : List Reading) → Slot
  valuePlaces       : (count index : Nat) → List Nat
  addressPlaces     : (count index : Nat) → List Nat
  carriesAddress    : Bool
  deriving Inhabited

/-- Free value (log 2): what protocol `p` defines in the family `k`; the source gives no timings of it. -/
opaque Config.otherFormat : Nat → OtherProtocol → MatcherFormat

/-- Free value (log 2): `match_p` of R8 in the family `k`, before the contract of R160 is imposed. -/
opaque Config.otherMatcher : Nat → OtherProtocol → List Ticks → Option Match

/-- Free value (log 16): the level an endless environment `source` drives at its `n`-th level (R222, K1-20). -/
opaque Config.irSource : (source n : Nat) → Level

/-- Free value (log 4): the tick generator's position after the `n`-th free draw (R330: "tick_phase: unspecified"). -/
opaque Config.freeTickPhase : Nat → Nat

end Sys2Proof
end

