-- ==== Sys2Proof/Syntax.lean ====
section
/-! DEFINITION. The instructions: one constructor per row of spec/opcode_table.json, in the table's order. -/

namespace Sys2Proof

/-- Commands written to CMD, host accesses, and the internal steps that have no encoding (R2, R102, R103).
`write` and `off` are the W and OFFSET fields of a refused access, `data` is a write's data word, `k` the RAW index
OFFSET[10:2], `op` the OP field of a reserved command, `mark` the sampled `ir_mark`. -/
inductive Instr where
  -- command words (R103)
  | nop
  | resume
  | decode
  | send
  | rsvdCmd4to7 (op : BitVec 4)
  | rsvdCmd8to15 (op : BitVec 4)
  -- accesses answered with a bus error (R82, R300)
  | busErrSize0 (write : Bool) (off : Offset)
  | busErrSize1 (write : Bool) (off : Offset)
  | busErrSize3 (write : Bool) (off : Offset)
  | busErrMisalign1 (write : Bool) (off : Offset)
  | busErrMisalign2 (write : Bool) (off : Offset)
  | busErrMisalign3 (write : Bool) (off : Offset)
  -- registers (R101)
  | rdCaps
  | wrCaps (data : Word)
  | rdCmd
  | wrCmd (data : Word)
  | rdStatus
  | wrStatus (data : Word)
  | rdRawlen
  | wrRawlen (data : Word)
  | rdTxCode
  | wrTxCode (data : Word)
  | rdResProto
  | wrResProto (data : Word)
  | rdResValue
  | wrResValue (data : Word)
  | rdResAddr
  | wrResAddr (data : Word)
  | rdResInfo
  | wrResInfo (data : Word)
  | rdRaw (k : BitVec 9)
  | wrRaw (k : BitVec 9) (data : Word)
  -- reserved offsets 0x024 to 0x7FC (R143)
  | rdRsvd024
  | wrRsvd024 (data : Word)
  | rdRsvd028 (off : Offset)
  | wrRsvd028 (off : Offset) (data : Word)
  | rdRsvd030 (off : Offset)
  | wrRsvd030 (off : Offset) (data : Word)
  | rdRsvd040 (off : Offset)
  | wrRsvd040 (off : Offset) (data : Word)
  | rdRsvd080 (off : Offset)
  | wrRsvd080 (off : Offset) (data : Word)
  | rdRsvd100 (off : Offset)
  | wrRsvd100 (off : Offset) (data : Word)
  | rdRsvd200 (off : Offset)
  | wrRsvd200 (off : Offset) (data : Word)
  | rdRsvd400 (off : Offset)
  | wrRsvd400 (off : Offset) (data : Word)
  -- internal steps (R222, R198, R199, R330)
  | sample (mark : Level)
  | txPulse
  | txEnd
  | rst
  deriving DecidableEq, Repr

end Sys2Proof
end

