-- ==== Sys2Proof/WellFormed.lean ====
section
/-! DEFINITION. Which instructions stand for a row of spec/opcode_table.json: each operand lies in its row's pattern. -/

namespace Sys2Proof

/-- A row of the table restricted to OFFSET: the bits of `off` under `mask` are `value`. -/
def Offset.fits (off mask value : Offset) : Bool := off &&& mask == value

/-- The reserved OPs 4 to 15 (R103), the misaligned offsets (R82) and the reserved blocks of R143 as the table cuts
them up; every other operand is free. -/
def Instr.WellFormed : Instr → Bool
  | .rsvdCmd4to7 op => op &&& 0xC#4 == 0x4#4
  | .rsvdCmd8to15 op => op &&& 0x8#4 == 0x8#4
  | .busErrMisalign1 _ off => off.fits 0x003#12 0x001#12
  | .busErrMisalign2 _ off => off.fits 0x003#12 0x002#12
  | .busErrMisalign3 _ off => off.fits 0x003#12 0x003#12
  | .rdRsvd028 off => off.fits 0xFFB#12 0x028#12
  | .wrRsvd028 off _ => off.fits 0xFFB#12 0x028#12
  | .rdRsvd030 off => off.fits 0xFF3#12 0x030#12
  | .wrRsvd030 off _ => off.fits 0xFF3#12 0x030#12
  | .rdRsvd040 off => off.fits 0xFC3#12 0x040#12
  | .wrRsvd040 off _ => off.fits 0xFC3#12 0x040#12
  | .rdRsvd080 off => off.fits 0xF83#12 0x080#12
  | .wrRsvd080 off _ => off.fits 0xF83#12 0x080#12
  | .rdRsvd100 off => off.fits 0xF03#12 0x100#12
  | .wrRsvd100 off _ => off.fits 0xF03#12 0x100#12
  | .rdRsvd200 off => off.fits 0xE03#12 0x200#12
  | .wrRsvd200 off _ => off.fits 0xE03#12 0x200#12
  | .rdRsvd400 off => off.fits 0xC03#12 0x400#12
  | .wrRsvd400 off _ => off.fits 0xC03#12 0x400#12
  | .nop | .resume | .decode | .send
  | .busErrSize0 _ _ | .busErrSize1 _ _ | .busErrSize3 _ _
  | .rdCaps | .wrCaps _ | .rdCmd | .wrCmd _ | .rdStatus | .wrStatus _ | .rdRawlen | .wrRawlen _
  | .rdTxCode | .wrTxCode _ | .rdResProto | .wrResProto _ | .rdResValue | .wrResValue _
  | .rdResAddr | .wrResAddr _ | .rdResInfo | .wrResInfo _ | .rdRaw _ | .wrRaw _ _
  | .rdRsvd024 | .wrRsvd024 _
  | .sample _ | .txPulse | .txEnd | .rst => true

end Sys2Proof
end

