-- ==== Sys2Proof/Decode.lean ====
section
/-! DEFINITION. From a host access to an instruction and back (R100 to R103, R111, R115, R116), and the host's numbering of
an instruction's bits. The bytes of an access come in the register window's own lane order, least significant first (R83). -/

namespace Sys2Proof

/-- The two encodings of the table: a bus access (descriptor and data word, R100) and a command word (R102). -/
inductive Format where
  | bus
  | cmd
  deriving DecidableEq, Repr

/-- An encoded instruction. A read carries no data word (R111): its `data` is 0. -/
inductive Code where
  | bus (desc : Descriptor) (data : Word)
  | cmd (word : Word)
  deriving DecidableEq, Repr

/-- Why bytes are no instruction. -/
inductive DecodeError where
  /-- The bytes end inside the access. -/
  | truncated
  /-- Bit 15 of the descriptor's two bytes is set: a descriptor has 15 bits (R100). -/
  | notADescriptor
  deriving DecidableEq, Repr

/-! ## Fields -/

/-- SIZE, descriptor bits [14:13] (R100). -/
def Descriptor.size (d : Descriptor) : BitVec 2 := d.extractLsb' 13 2

/-- W, descriptor bit [12] (R100). -/
def Descriptor.write (d : Descriptor) : Bool := d.getLsbD 12

/-- OFFSET, descriptor bits [11:0] (R100). -/
def Descriptor.offset (d : Descriptor) : Offset := d.extractLsb' 0 12

/-- The descriptor with these fields (R100). -/
def Descriptor.mk (size : BitVec 2) (write : Bool) (off : Offset) : Descriptor :=
  (size ++ BitVec.ofBool write ++ off : BitVec 15)

/-- The descriptor of a word access, SIZE = 2: `0x4000 | off` for a read and `0x5000 | off` for a write (R112). -/
def Descriptor.wordAccess (write : Bool) (off : Offset) : Descriptor := Descriptor.mk 2#2 write off

/-- OFFSET[1:0], the alignment of an access (R82). -/
def Offset.align (off : Offset) : BitVec 2 := off.extractLsb' 0 2

/-- The RAW index `k = OFFSET[10:2]` (R101, R115). -/
def Offset.rawIndex (off : Offset) : BitVec 9 := off.extractLsb' 2 9

/-- The offset of `RAW[k]`, `0x800 + 4k` (R101, R112). -/
def Offset.ofRaw (k : BitVec 9) : Offset := (1#1 ++ k ++ 0#2 : BitVec 12)

/-- OP, bits [3:0] of a command word; bits [31:4] are discarded (R102, R115). -/
def Word.opField (w : Word) : BitVec 4 := w.extractLsb' 0 4

/-- A word as the bytes at offsets `off .. off + 3`: byte `j` is bits `[8j+7 : 8j]` (R83). -/
def Word.lanes (w : Word) : List Byte :=
  [w.extractLsb' 0 8, w.extractLsb' 8 8, w.extractLsb' 16 8, w.extractLsb' 24 8]

/-- The word of four lane bytes (R83). -/
def Word.ofLanes (b0 b1 b2 b3 : Byte) : Word := (b3 ++ b2 ++ b1 ++ b0 : BitVec 32)

/-! ## Decoding -/

/-- A command word (R103): `d[31:4]` never matters (R130). -/
def decodeCmd (word : Word) : Instr :=
  let op := Word.opField word
  if op = 0#4 then .nop
  else if op = 1#4 then .resume
  else if op = 2#4 then .decode
  else if op = 3#4 then .send
  else if op < 8#4 then .rsvdCmd4to7 op
  else .rsvdCmd8to15 op

/-- A legal read, by the register map (R101) and the reserved blocks (R143). -/
def decodeRead (off : Offset) : Instr :=
  if off.getLsbD 11 then .rdRaw (Offset.rawIndex off)
  else if 0x400#12 ≤ off then .rdRsvd400 off
  else if 0x200#12 ≤ off then .rdRsvd200 off
  else if 0x100#12 ≤ off then .rdRsvd100 off
  else if 0x080#12 ≤ off then .rdRsvd080 off
  else if 0x040#12 ≤ off then .rdRsvd040 off
  else if 0x030#12 ≤ off then .rdRsvd030 off
  else if 0x028#12 ≤ off then .rdRsvd028 off
  else if off = 0x024#12 then .rdRsvd024
  else if off = 0x020#12 then .rdResInfo
  else if off = 0x01C#12 then .rdResAddr
  else if off = 0x018#12 then .rdResValue
  else if off = 0x014#12 then .rdResProto
  else if off = 0x010#12 then .rdTxCode
  else if off = 0x00C#12 then .rdRawlen
  else if off = 0x008#12 then .rdStatus
  else if off = 0x004#12 then .rdCmd
  else .rdCaps

/-- A legal write, by the register map (R101) and the reserved blocks (R143). -/
def decodeWrite (off : Offset) (data : Word) : Instr :=
  if off.getLsbD 11 then .wrRaw (Offset.rawIndex off) data
  else if 0x400#12 ≤ off then .wrRsvd400 off data
  else if 0x200#12 ≤ off then .wrRsvd200 off data
  else if 0x100#12 ≤ off then .wrRsvd100 off data
  else if 0x080#12 ≤ off then .wrRsvd080 off data
  else if 0x040#12 ≤ off then .wrRsvd040 off data
  else if 0x030#12 ≤ off then .wrRsvd030 off data
  else if 0x028#12 ≤ off then .wrRsvd028 off data
  else if off = 0x024#12 then .wrRsvd024 data
  else if off = 0x020#12 then .wrResInfo data
  else if off = 0x01C#12 then .wrResAddr data
  else if off = 0x018#12 then .wrResValue data
  else if off = 0x014#12 then .wrResProto data
  else if off = 0x010#12 then .wrTxCode data
  else if off = 0x00C#12 then .wrRawlen data
  else if off = 0x008#12 then .wrStatus data
  else if off = 0x004#12 then .wrCmd data
  else .wrCaps data

/-- A bus access, in the order of R116: SIZE, alignment, OFFSET, W. Every descriptor has a meaning. -/
def decodeBus (desc : Descriptor) (data : Word) : Instr :=
  let write := Descriptor.write desc
  let off := Descriptor.offset desc
  if Descriptor.size desc = 0#2 then .busErrSize0 write off
  else if Descriptor.size desc = 1#2 then .busErrSize1 write off
  else if Descriptor.size desc = 3#2 then .busErrSize3 write off
  else if Offset.align off = 1#2 then .busErrMisalign1 write off
  else if Offset.align off = 2#2 then .busErrMisalign2 write off
  else if Offset.align off = 3#2 then .busErrMisalign3 write off
  else if write then decodeWrite off data
  else decodeRead off

/-- An encoded instruction's meaning. -/
def decode : Code → Instr
  | .bus desc data => decodeBus desc data
  | .cmd word => decodeCmd word

/-- The bytes of an access or of a command word: two bytes of descriptor, then, for a write, four of data (R111); a command
word is four bytes. The layout is DESIGN CHOICE, log 13. Answers the instruction and the bytes after it. -/
def decodeBytes : Format → List Byte → Except DecodeError (Instr × List Byte)
  | .cmd, b0 :: b1 :: b2 :: b3 :: rest => .ok (decodeCmd (Word.ofLanes b0 b1 b2 b3), rest)
  | .cmd, _ => .error .truncated
  | .bus, d0 :: d1 :: rest =>
    let half : BitVec 16 := d1 ++ d0
    let desc : Descriptor := half.extractLsb' 0 15
    if half.getLsbD 15 then .error .notADescriptor
    else if Descriptor.write desc then
      match rest with
      | b0 :: b1 :: b2 :: b3 :: rest' => .ok (decodeBus desc (Word.ofLanes b0 b1 b2 b3), rest')
      | _ => .error .truncated
    else .ok (decodeBus desc 0#32, rest)
  | .bus, _ => .error .truncated

/-! ## Encoding -/

/-- A read of the register at `off` (R112). -/
def Code.read (off : Offset) : Code := .bus (Descriptor.wordAccess false off) 0#32

/-- A write of `data` to the register at `off` (R112). -/
def Code.write (off : Offset) (data : Word) : Code := .bus (Descriptor.wordAccess true off) data

/-- The code of an instruction, written from R100 to R103 and R112; the internal steps have none (R2). -/
def encode : Instr → Option Code
  | .nop => some (.cmd 0#32)
  | .resume => some (.cmd 1#32)
  | .decode => some (.cmd 2#32)
  | .send => some (.cmd 3#32)
  | .rsvdCmd4to7 op => some (.cmd (op.setWidth 32))
  | .rsvdCmd8to15 op => some (.cmd (op.setWidth 32))
  | .busErrSize0 write off => some (.bus (Descriptor.mk 0#2 write off) 0#32)
  | .busErrSize1 write off => some (.bus (Descriptor.mk 1#2 write off) 0#32)
  | .busErrSize3 write off => some (.bus (Descriptor.mk 3#2 write off) 0#32)
  | .busErrMisalign1 write off => some (.bus (Descriptor.wordAccess write off) 0#32)
  | .busErrMisalign2 write off => some (.bus (Descriptor.wordAccess write off) 0#32)
  | .busErrMisalign3 write off => some (.bus (Descriptor.wordAccess write off) 0#32)
  | .rdCaps => some (.read 0x000#12)
  | .wrCaps data => some (.write 0x000#12 data)
  | .rdCmd => some (.read 0x004#12)
  | .wrCmd data => some (.write 0x004#12 data)
  | .rdStatus => some (.read 0x008#12)
  | .wrStatus data => some (.write 0x008#12 data)
  | .rdRawlen => some (.read 0x00C#12)
  | .wrRawlen data => some (.write 0x00C#12 data)
  | .rdTxCode => some (.read 0x010#12)
  | .wrTxCode data => some (.write 0x010#12 data)
  | .rdResProto => some (.read 0x014#12)
  | .wrResProto data => some (.write 0x014#12 data)
  | .rdResValue => some (.read 0x018#12)
  | .wrResValue data => some (.write 0x018#12 data)
  | .rdResAddr => some (.read 0x01C#12)
  | .wrResAddr data => some (.write 0x01C#12 data)
  | .rdResInfo => some (.read 0x020#12)
  | .wrResInfo data => some (.write 0x020#12 data)
  | .rdRaw k => some (.read (Offset.ofRaw k))
  | .wrRaw k data => some (.write (Offset.ofRaw k) data)
  | .rdRsvd024 => some (.read 0x024#12)
  | .wrRsvd024 data => some (.write 0x024#12 data)
  | .rdRsvd028 off => some (.read off)
  | .wrRsvd028 off data => some (.write off data)
  | .rdRsvd030 off => some (.read off)
  | .wrRsvd030 off data => some (.write off data)
  | .rdRsvd040 off => some (.read off)
  | .wrRsvd040 off data => some (.write off data)
  | .rdRsvd080 off => some (.read off)
  | .wrRsvd080 off data => some (.write off data)
  | .rdRsvd100 off => some (.read off)
  | .wrRsvd100 off data => some (.write off data)
  | .rdRsvd200 off => some (.read off)
  | .wrRsvd200 off data => some (.write off data)
  | .rdRsvd400 off => some (.read off)
  | .wrRsvd400 off data => some (.write off data)
  | .sample _ => none
  | .txPulse => none
  | .txEnd => none
  | .rst => none

/-- The format of a code. -/
def Code.format : Code → Format
  | .bus _ _ => .bus
  | .cmd _ => .cmd

/-- The bytes of a code, as `decodeBytes` takes them. -/
def Code.bytes : Code → List Byte
  | .bus desc data =>
    let half : BitVec 16 := desc.setWidth 16
    [half.extractLsb' 0 8, half.extractLsb' 8 8] ++ if Descriptor.write desc then Word.lanes data else []
  | .cmd word => Word.lanes word

/-! ## The host's numbering -/

/-- The instruction whose bits are `w` as spec/opcode_table.json numbers them. A row of at most 8 bits is a command word
(format cmd has the four bits of OP) and so is one of 17 to 32 bits (a whole command word); a row of up to 16 bits is
a descriptor, and bits above 15 are a write's data word. Bits above `nbits` are 0 (log 13). -/
def tableCode (nbits w : Nat) : Code :=
  if nbits ≤ 8 then .cmd (BitVec.ofNat 32 (w % 2 ^ nbits))
  else if nbits ≤ 16 then .bus (BitVec.ofNat 15 w) 0#32
  else if nbits ≤ 32 then .cmd (BitVec.ofNat 32 (w % 2 ^ nbits))
  else .bus (BitVec.ofNat 15 w) (BitVec.ofNat 32 (w % 2 ^ nbits / 2 ^ 16))

/-- The decoder's answer on the bytes of that instruction. -/
def decodeTableWord (nbits w : Nat) : Option Instr :=
  match decodeBytes (tableCode nbits w).format (tableCode nbits w).bytes with
  | .ok (i, _) => some i
  | .error _ => none

end Sys2Proof
end

