-- ==== Sys2Proof/Machine/State.lean ====
section
/-! DEFINITION. The state: the block's elements (R30), what a run observes (R198, R343), the host agent (R250), and the
pending moves of host, environment and agents (R16, R86, R114). Plain data throughout. -/

namespace Sys2Proof.Machine

/-- The four capture states (R32). -/
inductive CapState where
  | idle
  | receiving
  | frameComplete
  | overflow
  deriving DecidableEq, Repr

/-- One emitted pulse: level and length in NEC units (R12, R198). -/
structure Pulse where
  level : Level
  units : Nat
  deriving DecidableEq, Repr

/-- What a decode attempt gives (R12, R150). -/
structure DecodedSignal where
  protocol : Protocol
  address  : Option Word
  value    : Word
  bitCount : BitVec 8
  overflow : Bool
  deriving DecidableEq, Repr

/-- Which agent moves (R16), or `rst` (R306). -/
inductive Turn where
  | host
  /-- A tick (R220). -/
  | tick
  | tx
  | rst
  /-- A level that passes on `ir_mark` during a transmission, unseen (R337; log 5). -/
  | unseen
  deriving DecidableEq, Repr

/-- What the environment drives once `irIn` is used up (log 16). -/
inductive Endless where
  /-- The stimulus is finite and then a model drives space (R343). -/
  | over
  /-- This level for ever: a mark that never ends is `hold true` (R231, R339). -/
  | hold (mark : Level)
  /-- A free choice at every level, for ever (R222, K1-20); `n` counts them. -/
  | free (source n : Nat)
  deriving DecidableEq, Repr

/-- The registers the host-script syntax names (R112). -/
inductive Reg where
  | caps | cmd | status | rawlen | txCode | resProto | resValue | resAddr | resInfo
  deriving DecidableEq, Repr

/-- One entry of a host program (R112, R113). -/
inductive HostOp where
  /-- A host access: descriptor and data word (R100). -/
  | access (desc : Descriptor) (data : Word)
  /-- `cmd n`: the command word written to CMD (R112). -/
  | command (word : Word)
  /-- `MemRead`/`MemWrite` of `size` bytes at a bus address (R11, R80). -/
  | bus (write : Bool) (addr size : Nat) (data : Word)
  /-- `poll REG, mask, val`: one read a step until the masked value is `val` (R113). -/
  | poll (reg : Reg) (mask val : Word)
  /-- The platform starts the host loop (R333). -/
  | startLoop
  deriving DecidableEq, Repr

/-- The source's OperatingMode, host state (R52, R253). -/
inductive OperatingMode where
  | receive
  | transmit
  deriving DecidableEq, Repr

/-- What one decoder poll has read (R252): the result registers, RAWLEN and the raw words so far. -/
structure Report where
  proto : Word
  value : Word
  addr  : Word
  info  : Word
  len   : Nat
  raw   : List Word
  deriving DecidableEq, Repr

/-- An item of serial output: the texts the spec fixes by content and not by character (R255, R257 to R260, R264; log 10). -/
inductive HostOut where
  | echo (line : List Byte)
  | help
  | confirmReceive
  | confirmTransmit
  | sentCode (code : Word)
  | report (r : Report) (durationsUs : List Nat)
  deriving DecidableEq, Repr

/-- Where the poll loop stands (R251, R252, R260): each place makes at most one register access. `avail` are the bytes of
this iteration not yet processed. -/
inductive LoopPc where
  | off
  | loopStart
  | serial (avail : List Byte)
  | txWrite (code : Word) (avail : List Byte)
  | txSend (code : Word) (avail : List Byte)
  | txWait (code : Word) (avail : List Byte)
  | pollStatus
  | pollDecode
  | readProto
  | readValue (r : Report)
  | readAddr (r : Report)
  | readInfo (r : Report)
  | readLen (r : Report)
  | readRaw (r : Report)
  | printReport (r : Report)
  | resume
  deriving DecidableEq, Repr

/-- The surrounding software's state (R250). `serialIn` holds one burst of bytes for each coming iteration of the loop:
the bytes available when it starts (R251). -/
structure HostSoftware where
  mode        : OperatingMode
  line        : List Byte
  lineTooLong : Bool
  serialIn    : List (List Byte)
  serialOut   : List HostOut
  pc          : LoopPc
  deriving DecidableEq, Repr

/-- Why a step stops. -/
inductive Fault where
  /-- Raised by an access with SIZE not 4 bytes or a misaligned offset (R82, R300), with the bus address of the error
  response. Safe: the access has no effect, and `step` records the response and goes on (log 7). -/
  | busError (addr : Nat)
  /-- Raised by a host access outside the window, where the block answers nothing (R80). Safe: the model stops where
  another device might have answered (log 9). -/
  | outsideWindow (addr : Nat)
  deriving DecidableEq, Repr

/-- Why an instruction has no meaning. -/
inductive Refusal where
  /-- Raised by an arm of `exec` whose instruction has no meaning yet; no arm does. Safe. -/
  | notModelled (mnemonic : String)
  deriving DecidableEq, Repr

/-- The machine's state. -/
structure State where
  /-- The build parameters (R7, R8): no step changes them (log 1). -/
  cfg : Params
  -- the capture unit (R32 to R35, R37, R40)
  capState : CapState
  capLevel : Level
  capCnt : Ticks
  /-- The pulse buffer's valid entries `buf[0..rawlen-1]` (R53); `rawlen` is its length (log 3). -/
  buf : List Ticks
  ovf : Bool
  -- the result registers (R38, R46)
  resValid : Bool
  resProto : BitVec 4
  resValue : Word
  resAddr : Word
  resAddrPresent : Bool
  resBits : BitVec 8
  resOvf : Bool
  -- the transmitter (R39, R43 to R45, R200)
  txCode : Word
  txBusy : Bool
  txFrame : Word
  txIdx : BitVec 7
  irTx : Level
  /-- The sticky command-error flag (R42). -/
  cmdErr : Bool
  /-- The tick generator's position (R51): free after RST, read by no rule. That it stands between resets is DESIGN CHOICE,
  the spec giving no evolution (log 4). -/
  tickPhase : Nat
  /-- The pulses emitted since reset (R198). -/
  wireOut : List Pulse
  /-- The values the host's reads returned, in order (R343). -/
  reads : List Word
  /-- The bus addresses of the error responses the host received, in order (R300, R343). -/
  busErrors : List Nat
  /-- The surrounding software (R250). -/
  host : HostSoftware
  /-- The host program's pending accesses, oldest first (R112). -/
  script : List HostOp
  /-- The environment's pending `ir_mark` levels, one per SAMPLE step (R114). -/
  irIn : List Level
  /-- What it drives after them (R231, R343; log 16). -/
  irTail : Endless
  /-- The order in which the agents move next (R86, R87; log 5). -/
  agenda : List Turn
  /-- With an empty agenda: whether the host moves next (R344; log 5). -/
  hostNext : Bool
  /-- How many free values were drawn (log 4). -/
  freeCount : Nat
  deriving DecidableEq, Repr

/-- The software before its loop runs: mode Receive (R253). The spec gives no other start value: an empty line,
`line_too_long` false, nothing to read, nothing printed and the loop off are DESIGN CHOICE, log 8. -/
def HostSoftware.initial : HostSoftware where
  mode        := .receive
  line        := []
  lineTooLong := false
  serialIn    := []
  serialOut   := []
  pc          := .off

/-- The machine right after reset, for the build `cfg` (R30, R330). -/
def State.resetWith (cfg : Params) : State where
  cfg := cfg
  capState := .idle
  capLevel := false
  capCnt := 0#16
  buf := []
  ovf := false
  resValid := false
  resProto := 0#4
  resValue := 0#32
  resAddr := 0#32
  resAddrPresent := false
  resBits := 0#8
  resOvf := false
  txCode := 0#32
  txBusy := false
  txFrame := 0#32
  txIdx := 0#7
  irTx := false
  cmdErr := false
  tickPhase := 0
  wireOut := []
  reads := []
  busErrors := []
  host := .initial
  script := []
  irIn := []
  irTail := .over
  agenda := []
  hostNext := true
  freeCount := 0

/-- The machine right after reset, with the reference parameters of R7 (log 1). -/
def State.reset : State := State.resetWith Params.reference

end Sys2Proof.Machine
end

