-- ==== Sys2Proof/Machine/Operands.lean ====
section
/-! DEFINITION. The operands of an access and the views of the state it reads: offsets and bus addresses (R80, R100,
R101), the buffer entry a RAW read names (R137), the numeric codes of R32 and R104. -/

namespace Sys2Proof.Machine

/-- CAP_STATE (R32). -/
def CapState.code : CapState → BitVec 2
  | .idle => 0#2
  | .receiving => 1#2
  | .frameComplete => 2#2
  | .overflow => 3#2

/-- The protocol code of `RES_PROTO[3:0]` (R104). -/
def protocolCode : Protocol → BitVec 4
  | .unknown => 0#4
  | .nec => 1#4
  | .other .sony => 2#4
  | .other .rc5 => 3#4
  | .other .rc6 => 4#4
  | .other .dish => 5#4
  | .other .sharp => 6#4
  | .other .jvc => 7#4
  | .other .sanyo => 8#4
  | .other .mitsubishi => 9#4
  | .other .samsung => 10#4
  | .other .lg => 11#4
  | .other .whynter => 12#4
  | .other .aiwaRCT501 => 13#4
  | .other .panasonic => 14#4
  | .other .denon => 15#4

/-- The offset of a named register (R101). -/
def Reg.offset : Reg → Offset
  | .caps => 0x000#12
  | .cmd => 0x004#12
  | .status => 0x008#12
  | .rawlen => 0x00C#12
  | .txCode => 0x010#12
  | .resProto => 0x014#12
  | .resValue => 0x018#12
  | .resAddr => 0x01C#12
  | .resInfo => 0x020#12

/-- SIZE of an access of `size` bytes (R100); a size that is no size of the table takes code 3, which is refused like
every size but 4 (R82). -/
def sizeCode : Nat → BitVec 2
  | 1 => 0#2
  | 2 => 1#2
  | 4 => 2#2
  | _ => 3#2

/-- The descriptor of a bus access, for an address inside the window `ircBase .. ircBase + 0xFFF` (R80, R100). -/
def busDescriptor (cfg : Params) (write : Bool) (addr size : Nat) : Option Descriptor :=
  if cfg.ircBase ≤ addr ∧ addr < cfg.ircBase + 4096 then
    some (Descriptor.mk (sizeCode size) write (BitVec.ofNat 12 (addr - cfg.ircBase)))
  else none

/-- `rawlen`, the number of valid buffer entries (R35). -/
def State.rawlen (s : State) : Ticks := BitVec.ofNat 16 s.buf.length

/-- What a read of `RAW[k]` returns: `buf[k]` if `k < rawlen`, else 0 (R137). -/
def State.rawWord (s : State) (k : BitVec 9) : Word :=
  match s.buf[k.toNat]? with
  | some d => d.setWidth 32
  | none => 0#32

/-- The value of the host's last read, which its own program goes on (R113, R252). -/
def State.lastRead (s : State) : Word := s.reads.getLastD 0#32

end Sys2Proof.Machine
end

