-- ==== Sys2Proof/Machine/Flags.lean ====
section
/-! DEFINITION. The status views: CAPS (R47, R134), STATUS (R48, R135), RES_INFO (R49, R140), and the saturating
count (R10, R34). -/

namespace Sys2Proof.Machine

/-- READY: a DECODE has a snapshot to read (R13, R48). -/
def State.ready (s : State) : Bool :=
  match s.capState with
  | .frameComplete | .overflow => true
  | .idle | .receiving => false

/-- `{USECPERTICK[15:0], RAWBUF[15:0]}` (R134). -/
def State.capsWord (s : State) : Word :=
  (BitVec.ofNat 16 s.cfg.usecPerTick ++ BitVec.ofNat 16 s.cfg.rawbuf : BitVec 32)

/-- `{READY, cmd_err, tx_busy, res_valid, ovf, cap_state[1:0]}`, zero-extended (R135). -/
def State.statusWord (s : State) : Word :=
  (BitVec.ofBool s.ready ++ BitVec.ofBool s.cmdErr ++ BitVec.ofBool s.txBusy ++ BitVec.ofBool s.resValid
    ++ BitVec.ofBool s.ovf ++ s.capState.code).setWidth 32

/-- `{res_ovf, res_addr_present, res_bits[7:0]}`, zero-extended (R140). -/
def State.resInfoWord (s : State) : Word :=
  (BitVec.ofBool s.resOvf ++ BitVec.ofBool s.resAddrPresent ++ s.resBits).setWidth 32

/-- One more tick, saturating at 65535 (R34, R223). -/
def countTick (c : Ticks) : Ticks := if c = 0xFFFF#16 then c else c + 1#16

end Sys2Proof.Machine
end

