-- ==== Sys2Proof/Machine/Ops.lean ====
section
/-! DEFINITION. The shared operations over the state: answering an access, the bus-error response (the block's one
exception: it has no trap entry and no return, R307), emptying the capture unit, ending a transmission, writing a
result, and reset. -/

namespace Sys2Proof.Machine

/-- A read's word, returned to the host; no state of the block changes (R85, R133). -/
def State.respond (s : State) (w : Word) : State := { s with reads := s.reads ++ [w] }

/-- An access refused by R82: the error response carries the bus address `IRC_BASE + off` (R300). -/
def busErrorAt (off : Offset) (s : State) : Host.Outcome State Fault Refusal :=
  .fault (.busError (s.cfg.ircBase + off.toNat))

/-- The host receives an error response: it is kept (R343), and nothing else changes (R300). -/
def State.recordBusError (s : State) (addr : Nat) : State := { s with busErrors := s.busErrors ++ [addr] }

/-- The end of a host access begun in `s`: a bus error ends the access with an error response and the block goes on
(R300, R302; log 7); every other outcome stands. -/
def endAccess (s : State) : Host.Outcome State Fault Refusal → Host.Outcome State Fault Refusal
  | .next t => .next t
  | .fault (.busError addr) => .next (s.recordBusError addr)
  | .fault (.outsideWindow addr) => .fault (.outsideWindow addr)
  | .refused r => .refused r

/-- The capture unit back in Idle with an empty buffer (R228, R229). -/
def State.clearCapture (s : State) : State :=
  { s with capState := .idle, buf := [], capCnt := 0#16, capLevel := false }

/-- What a finished transmission does to the capture unit: a partial frame is discarded, a held snapshot survives (R228). -/
def State.captureAfterTx (s : State) : State :=
  match s.capState with
  | .receiving => s.clearCapture
  | .idle | .frameComplete | .overflow => s

/-- `transmission_end()` (R199). -/
def State.transmissionEnd (s : State) : State :=
  { s with irTx := false, txBusy := false }.captureAfterTx

/-- `write_result(r)`: the six result registers together (R150). -/
def State.writeResult (s : State) (r : DecodedSignal) : State :=
  { s with
    resProto := protocolCode r.protocol
    resValue := r.value
    resAddr := r.address.getD 0#32
    resAddrPresent := r.address.isSome
    resBits := r.bitCount
    resOvf := r.overflow }

/-- One cycle of `rst`: every element of the block at its reset value (R330); the host's, the environment's and the
schedule's state is not the block's. `tick_phase` is unspecified: a free value. No other step writes it, which is DESIGN
CHOICE (log 4). -/
def State.resetBlock (s : State) : State :=
  { State.resetWith s.cfg with
    tickPhase := Config.freeTickPhase s.freeCount
    freeCount := s.freeCount + 1
    reads := s.reads
    busErrors := s.busErrors
    host := s.host
    script := s.script
    irIn := s.irIn
    irTail := s.irTail
    agenda := s.agenda
    hostNext := s.hostNext }

end Sys2Proof.Machine
end

