-- ==== Sys2Proof/Machine/Capture.lean ====
section
/-! DEFINITION. The capture unit (43_capture.md): the SAMPLE step and RESUME. -/

namespace Sys2Proof.Machine

/-- A sample at the level being timed (R223): one more tick; a space that reaches GAP_TICKS completes the frame. -/
def State.countSample (s : State) : State :=
  if s.capLevel = false ∧ s.cfg.gapTicks ≤ (countTick s.capCnt).toNat then
    { s with capCnt := countTick s.capCnt, capState := .frameComplete }
  else { s with capCnt := countTick s.capCnt }

/-- A sample at the other level, an edge (R225): the ended pulse is recorded; a buffer that is now full is an overflow
(R226), else the new pulse begins. -/
def State.recordEdge (s : State) (mark : Level) : State :=
  if s.buf.length + 1 = s.cfg.rawbuf then
    { s with buf := s.buf ++ [s.capCnt], capState := .overflow, ovf := true }
  else { s with buf := s.buf ++ [s.capCnt], capLevel := mark, capCnt := 1#16 }

/-- SAMPLE (R222) of the level `mark`; while a transmission is in progress the capture unit takes no sample (R220, R228). -/
def execSample (mark : Level) (s : State) : Host.Outcome State Fault Refusal :=
  if s.txBusy then .next s
  else match s.capState with
    | .idle =>
      if mark then .next { s with capState := .receiving, capLevel := true, capCnt := 1#16 } else .next s
    | .receiving => if mark = s.capLevel then .next s.countSample else .next (s.recordEdge mark)
    | .frameComplete => .next s
    | .overflow => .next s

/-- RESUME (R229): the capture unit back in Idle, `ovf` and `res_valid` cleared. -/
def execResume (s : State) : Host.Outcome State Fault Refusal :=
  .next { s.clearCapture with ovf := false, resValid := false }

end Sys2Proof.Machine
end

