-- ==== Sys2Proof/Machine/Decoder.lean ====
section
/-! DEFINITION. The protocol decoder (41_decoder.md): timing arithmetic, matchers, the decode function, and DECODE. -/

namespace Sys2Proof.Machine

/-! ## Timing arithmetic, exact on natural numbers -/

/-- The nanoseconds a recorded count stands for (R151). -/
def tickNs (p : Params) (d : Ticks) : Nat := d.toNat * p.usecPerTick * 1000

/-- A count lies in the closed band of `TOL_PCT` percent around a nominal duration in nanoseconds (R152). -/
def inBandNs (p : Params) (d : Ticks) (nominalNs : Nat) : Bool :=
  (100 - p.tolPct) * nominalNs ≤ 100 * tickNs p d && 100 * tickNs p d ≤ (100 + p.tolPct) * nominalNs

/-- `match(d, n)`: the tolerance test against `n` NEC units (R152). -/
def inBand (p : Params) (d : Ticks) (units : Nat) : Bool := inBandNs p d (units * Config.necUnitNs)

/-- The midpoint threshold between the zero space and the one space (R154). -/
def oneCandidate (p : Params) (d : Ticks) : Bool := (1 + 3) * Config.necUnitNs ≤ 2 * tickNs p d

/-- `classify_space(d)`: the bit of a space, or none for FAIL (R155). -/
def classifySpace (p : Params) (d : Ticks) : Option Bool :=
  if oneCandidate p d then
    if inBand p d 3 then some true else none
  else
    if inBand p d 1 then some false else none

/-! ## Matchers -/

/-- A bit OR-ed into its place; a place beyond bit 31 is discarded (R10, R162). -/
def orBit (v : Word) (b : Bool) (i : Nat) : Word := v ||| ((BitVec.ofBool b).setWidth 32 <<< i)

/-- The loop of R161 over `n` mark/space pairs from bit `i` on: the value so far with each bit OR-ed into its place
(R162), and the entries after the pairs; none at the first pulse that fails. -/
def necBits (p : Params) : (n i : Nat) → Word → List Ticks → Option (Word × List Ticks)
  | 0, _, v, rest => some (v, rest)
  | n + 1, i, v, m :: s :: rest =>
    if inBand p m 1 then
      match classifySpace p s with
      | some b => necBits p n (i + 1) (orBit v b i) rest
      | none => none
    else none
  | _ + 1, _, _, _ => none

/-- The NEC matcher (R161): header mark 16, header space 8, 32 pairs, trailing mark 1; later entries are ignored (R170). -/
def matchNec (p : Params) (train : List Ticks) : Option Match :=
  if train.length < 67 then none
  else match train with
    | mark :: space :: rest =>
      if inBand p mark 16 then
        if inBand p space 8 then
          match necBits p 32 0 0#32 rest with
          | some (v, trail :: _) =>
            if inBand p trail 1 then some { value := v, address := none, bitCount := 32#8 } else none
          | _ => none
        else none
      else none
    | _ => none

/-- The bit of a pulse of format `f`: the side of the midpoint between the nominal 0 and 1 durations that the pulse lies
on, provided it also lies in the band of that bit's duration (R160(d), R160(f)). -/
def classifyPulse (p : Params) (f : MatcherFormat) (d : Ticks) : Option Bool :=
  let longer := f.zeroNs + f.oneNs < 2 * tickNs p d || f.midpointIsLonger && f.zeroNs + f.oneNs == 2 * tickNs p d
  let b := longer == decide (f.zeroNs ≤ f.oneNs)
  if inBandNs p d (if b then f.oneNs else f.zeroNs) then some b else none

/-- What the entries `rest` of a train of format `f` are read as, after the readings `read`: none at the first pulse out of
tolerance and at a train that ends too early (R160(b), R160(f)). -/
def readSlots (p : Params) (f : MatcherFormat) (length : Nat) : List Reading → List Ticks → Option (List Reading)
  | read, [] =>
    match f.slot length read with
    | .stop => some read
    | .pulse _ | .bit => none
  | read, d :: rest =>
    match f.slot length read with
    | .stop => some read
    | .pulse nominalsNs =>
      match nominalsNs.find? (inBandNs p d) with
      | some nominalNs => readSlots p f length (read ++ [.pulse nominalNs]) rest
      | none => none
    | .bit =>
      match classifyPulse p f d with
      | some b => readSlots p f length (read ++ [.bit b]) rest
      | none => none

/-- The bits among readings, in order. -/
def readBits (read : List Reading) : List Bool :=
  read.filterMap fun
    | .pulse _ => none
    | .bit b => some b

/-- Bits OR-ed into a word, the first of them being bit `i` of the order: each at its places (R160(e)). -/
def placeBits (places : Nat → List Nat) : (i : Nat) → List Bool → Word → Word
  | _, [], v => v
  | i, b :: rest, v => placeBits places (i + 1) rest ((places i).foldl (orBit · b ·) v)

/-- The word of a matcher's bits, in the bit order `places` (R160(e)). -/
def wordOfBits (places : (count index : Nat) → List Nat) (bits : List Bool) : Word :=
  placeBits (places bits.length) 0 bits 0#32

/-- A match holds the bits in the protocol's bit order, an address only where the protocol carries one (R160(e), R160(g)). -/
def holdsBits (f : MatcherFormat) (bits : List Bool) (m : Match) : Bool :=
  m.value == wordOfBits f.valuePlaces bits
    && (m.address == none || f.carriesAddress && m.address == some (wordOfBits f.addressPlaces bits))

/-- A matcher of format `f` may answer `m` on this train (R160): the header within the band (c), every entry it reads within
tolerance and every bit on its side of the midpoint (b, d, f), and the bits in their places (e, g). -/
def obeysContract (p : Params) (f : MatcherFormat) (train : List Ticks) (m : Match) : Bool :=
  match train with
  | mark :: space :: rest =>
    inBandNs p mark f.headerMarkNs && inBandNs p space f.headerSpaceNs
      && match readSlots p f train.length [] rest with
        | some read => holdsBits f (readBits read) m
        | none => false
  | _ => false

/-- `matcher`, a function of the train alone (R160(a)), held to the contract: a match that breaks it is no match. -/
def matchContracted (p : Params) (f : MatcherFormat) (matcher : List Ticks → Option Match) (train : List Ticks) :
    Option Match :=
  (matcher train).filter (obeysContract p f train)

/-- `match_p` for the 14 other protocols, as the block was built: the reference configuration or a free family (R7, R8). -/
def matchOther (p : Params) (q : OtherProtocol) (train : List Ticks) : Option Match :=
  match p.matchers with
  | .rejectAll => none
  | .family k => matchContracted p (Config.otherFormat k q) (Config.otherMatcher k q) train

/-- The matcher of a protocol; Unknown has none (R159). -/
def matchProtocol (p : Params) (train : List Ticks) : Protocol → Option Match
  | .unknown => none
  | .nec => matchNec p train
  | .other q => matchOther p q train

/-! ## The decode function -/

/-- The result when nothing is recognised (R158, R164). -/
def unknownSignal (overflow : Bool) : DecodedSignal where
  protocol := .unknown
  address  := none
  value    := 0#32
  bitCount := 0#8
  overflow := overflow

/-- The result of a matcher that accepted (R158). -/
def matchedSignal (q : Protocol) (m : Match) : DecodedSignal where
  protocol := q
  address  := m.address
  value    := m.value
  bitCount := m.bitCount
  overflow := false

/-- Steps 2 and 3 of R158: the first matcher in the order that accepts gives the result (R171). -/
def firstMatch (p : Params) (train : List Ticks) : List Protocol → DecodedSignal
  | [] => unknownSignal false
  | q :: rest =>
    match matchProtocol p train q with
    | some m => matchedSignal q m
    | none => firstMatch p train rest

/-- `decode(len, buf, ovf)` (R158). -/
def decodeTrain (p : Params) (train : List Ticks) (ovf : Bool) : DecodedSignal :=
  if ovf then unknownSignal true
  else if train.length < p.minFrameLen then unknownSignal false
  else firstMatch p train (.nec :: p.matcherOrder.map .other)

/-! ## The command -/

/-- DECODE (R156): with a snapshot held, the result registers take its decoded signal and `res_valid` is set; otherwise
only `res_valid` is cleared (R166). -/
def execDecode (s : State) : Host.Outcome State Fault Refusal :=
  if s.ready then .next { s.writeResult (decodeTrain s.cfg s.buf s.ovf) with resValid := true }
  else .next { s with resValid := false }

end Sys2Proof.Machine
end

