-- ==== Sys2Proof/Machine/Encoder.lean ====
section
/-! DEFINITION. The NEC encoder (42_encoder.md): the pulse sequence of a frame, SEND, and the transmitter's steps. -/

namespace Sys2Proof.Machine

/-- The mark and the space that carry bit `i` of a frame (R191): a long space for 1 (R108, R190). -/
def necBitPulses (frame : Word) (i : Nat) : List Pulse :=
  [{ level := true, units := 1 }, { level := false, units := if frame.getLsbD i then 3 else 1 }]

/-- `nec_pulses(F)` (R191): header, 32 bits least significant first, trailing mark. -/
def necPulses (frame : Word) : List Pulse :=
  [{ level := true, units := 16 }, { level := false, units := 8 }]
    ++ (List.range 32).flatMap (necBitPulses frame)
    ++ [{ level := true, units := 1 }]

/-- Frame formation (R192). -/
def necFrame (code : Word) : Word := Config.necInitMask ||| code

/-- SEND (R196): the frame is latched and the transmission begins; while one is in progress the command is dropped and
`cmd_err` is set (R197). -/
def execSend (s : State) : Host.Outcome State Fault Refusal :=
  if s.txBusy then .next { s with cmdErr := true }
  else .next { s with txFrame := necFrame s.txCode, txIdx := 0#7, txBusy := true }

/-- Emission of one pulse: the output takes its level, it joins `wire_out`, and the index moves on (R198). -/
def State.emit (s : State) (p : Pulse) : State :=
  { s with irTx := p.level, wireOut := s.wireOut ++ [p], txIdx := s.txIdx + 1#7 }

/-- TX_PULSE (R198), enabled while `tx_busy = 1`: pulse `tx_idx` is emitted, and after pulse 66 the transmission ends
(R199). Where it is not enabled, or the frame has no such pulse, nothing happens (DEDUCED, log 14). -/
def execTxPulse (s : State) : Host.Outcome State Fault Refusal :=
  if s.txBusy then
    match (necPulses s.txFrame)[s.txIdx.toNat]? with
    | some p =>
      if (s.emit p).txIdx = 67#7 then .next (s.emit p).transmissionEnd else .next (s.emit p)
    | none => .next s
  else .next s

/-- TX_END (R199): the end of a transmission whose 67 pulses are out; otherwise it is not enabled and nothing happens
(DEDUCED, log 14). -/
def execTxEnd (s : State) : Host.Outcome State Fault Refusal :=
  if s.txBusy && s.txIdx == 67#7 then .next s.transmissionEnd else .next s

end Sys2Proof.Machine
end

