-- ==== Sys2Proof/Machine/Commands.lean ====
section
/-! DEFINITION. NOP, the reserved commands, and the dispatch of a CMD write (R130 to R132). -/

namespace Sys2Proof.Machine

/-- NOP: `cmd_err <- 0` (R131). -/
def execNop (s : State) : Host.Outcome State Fault Refusal := .next { s with cmdErr := false }

/-- A reserved command: `cmd_err <- 1` (R132). -/
def State.flagCommand (s : State) : State := { s with cmdErr := true }

/-- OP 4 to 7 (R132). -/
def execRsvdCmd4to7 (_op : BitVec 4) (s : State) : Host.Outcome State Fault Refusal := .next s.flagCommand

/-- OP 8 to 15 (R132). -/
def execRsvdCmd8to15 (_op : BitVec 4) (s : State) : Host.Outcome State Fault Refusal := .next s.flagCommand

/-- A CMD write performs the command its OP field names; `data[31:4]` never matters (R102, R130). -/
def execWrCmd (data : Word) (s : State) : Host.Outcome State Fault Refusal :=
  let op := Word.opField data
  if op = 0#4 then execNop s
  else if op = 1#4 then execResume s
  else if op = 2#4 then execDecode s
  else if op = 3#4 then execSend s
  else if op < 8#4 then execRsvdCmd4to7 op s
  else execRsvdCmd8to15 op s

end Sys2Proof.Machine
end

