-- ==== Sys2Proof/Machine/Events.lean ====
section
/-! DEFINITION. Accesses answered with a bus error, and reset (R82, R300, R330). -/

namespace Sys2Proof.Machine

/-- A 1-byte access: bus error, no state change (R82, R300). -/
def execBusErrSize0 (_write : Bool) (off : Offset) (s : State) : Host.Outcome State Fault Refusal := busErrorAt off s

/-- A 2-byte access: bus error, no state change (R82, R300). -/
def execBusErrSize1 (_write : Bool) (off : Offset) (s : State) : Host.Outcome State Fault Refusal := busErrorAt off s

/-- SIZE = 3, never a word access: bus error, no state change (R82, R300). -/
def execBusErrSize3 (_write : Bool) (off : Offset) (s : State) : Host.Outcome State Fault Refusal := busErrorAt off s

/-- OFFSET[1:0] = 1: bus error, no state change (R82, R300). -/
def execBusErrMisalign1 (_write : Bool) (off : Offset) (s : State) : Host.Outcome State Fault Refusal := busErrorAt off s

/-- OFFSET[1:0] = 2: bus error, no state change (R82, R300). -/
def execBusErrMisalign2 (_write : Bool) (off : Offset) (s : State) : Host.Outcome State Fault Refusal := busErrorAt off s

/-- OFFSET[1:0] = 3: bus error, no state change (R82, R300). -/
def execBusErrMisalign3 (_write : Bool) (off : Offset) (s : State) : Host.Outcome State Fault Refusal := busErrorAt off s

/-- RST: one cycle of `rst` (R330). -/
def execRst (s : State) : Host.Outcome State Fault Refusal := .next s.resetBlock

end Sys2Proof.Machine
end

