-- ==== Sys2Proof/Machine/Registers.lean ====
section
/-! DEFINITION. Register reads (R133 to R138, R140, R142, R143) and register writes (R139, R141, R143). -/

namespace Sys2Proof.Machine

/-- A legal read answers the register's word and changes nothing (R85, R133). -/
def readWord (w : Word) (s : State) : Host.Outcome State Fault Refusal := .next (s.respond w)

/-- A write that no rule gives an effect is ignored: no state changes and no flag is set (R141, R143). -/
def ignoreWrite (s : State) : Host.Outcome State Fault Refusal := .next s

/-! ## Reads -/

/-- CAPS (R134). -/
def execRdCaps (s : State) : Host.Outcome State Fault Refusal := readWord s.capsWord s

/-- CMD is write-only and reads 0 (R142). -/
def execRdCmd (s : State) : Host.Outcome State Fault Refusal := readWord 0#32 s

/-- STATUS (R135). -/
def execRdStatus (s : State) : Host.Outcome State Fault Refusal := readWord s.statusWord s

/-- RAWLEN, zero-extended (R136). -/
def execRdRawlen (s : State) : Host.Outcome State Fault Refusal := readWord (s.rawlen.setWidth 32) s

/-- TX_CODE as written, without the mask (R138). -/
def execRdTxCode (s : State) : Host.Outcome State Fault Refusal := readWord s.txCode s

/-- RES_PROTO, zero-extended (R140). -/
def execRdResProto (s : State) : Host.Outcome State Fault Refusal := readWord (s.resProto.setWidth 32) s

/-- RES_VALUE (R140). -/
def execRdResValue (s : State) : Host.Outcome State Fault Refusal := readWord s.resValue s

/-- RES_ADDR (R140). -/
def execRdResAddr (s : State) : Host.Outcome State Fault Refusal := readWord s.resAddr s

/-- RES_INFO (R140). -/
def execRdResInfo (s : State) : Host.Outcome State Fault Refusal := readWord s.resInfoWord s

/-- RAW[k] (R137). -/
def execRdRaw (k : BitVec 9) (s : State) : Host.Outcome State Fault Refusal := readWord (s.rawWord k) s

/-- Reserved offset 0x024: reads 0 (R143). -/
def execRdRsvd024 (s : State) : Host.Outcome State Fault Refusal := readWord 0#32 s

/-- Reserved offset 0x028 to 0x02C: reads 0 (R143). -/
def execRdRsvd028 (_off : Offset) (s : State) : Host.Outcome State Fault Refusal := readWord 0#32 s

/-- Reserved offset 0x030 to 0x03C: reads 0 (R143). -/
def execRdRsvd030 (_off : Offset) (s : State) : Host.Outcome State Fault Refusal := readWord 0#32 s

/-- Reserved offset 0x040 to 0x07C: reads 0 (R143). -/
def execRdRsvd040 (_off : Offset) (s : State) : Host.Outcome State Fault Refusal := readWord 0#32 s

/-- Reserved offset 0x080 to 0x0FC: reads 0 (R143). -/
def execRdRsvd080 (_off : Offset) (s : State) : Host.Outcome State Fault Refusal := readWord 0#32 s

/-- Reserved offset 0x100 to 0x1FC: reads 0 (R143). -/
def execRdRsvd100 (_off : Offset) (s : State) : Host.Outcome State Fault Refusal := readWord 0#32 s

/-- Reserved offset 0x200 to 0x3FC: reads 0 (R143). -/
def execRdRsvd200 (_off : Offset) (s : State) : Host.Outcome State Fault Refusal := readWord 0#32 s

/-- Reserved offset 0x400 to 0x7FC: reads 0 (R143). -/
def execRdRsvd400 (_off : Offset) (s : State) : Host.Outcome State Fault Refusal := readWord 0#32 s

/-! ## Writes -/

/-- TX_CODE takes the data word (R139). -/
def execWrTxCode (data : Word) (s : State) : Host.Outcome State Fault Refusal := .next { s with txCode := data }

/-- Read-only: the write is ignored (R141). -/
def execWrCaps (_data : Word) (s : State) : Host.Outcome State Fault Refusal := ignoreWrite s

/-- Read-only: the write is ignored (R141). -/
def execWrStatus (_data : Word) (s : State) : Host.Outcome State Fault Refusal := ignoreWrite s

/-- Read-only: the write is ignored (R141). -/
def execWrRawlen (_data : Word) (s : State) : Host.Outcome State Fault Refusal := ignoreWrite s

/-- Read-only: the write is ignored (R141). -/
def execWrResProto (_data : Word) (s : State) : Host.Outcome State Fault Refusal := ignoreWrite s

/-- Read-only: the write is ignored (R141). -/
def execWrResValue (_data : Word) (s : State) : Host.Outcome State Fault Refusal := ignoreWrite s

/-- Read-only: the write is ignored (R141). -/
def execWrResAddr (_data : Word) (s : State) : Host.Outcome State Fault Refusal := ignoreWrite s

/-- Read-only: the write is ignored (R141). -/
def execWrResInfo (_data : Word) (s : State) : Host.Outcome State Fault Refusal := ignoreWrite s

/-- The RAW window is read-only: the write is ignored (R141). -/
def execWrRaw (_k : BitVec 9) (_data : Word) (s : State) : Host.Outcome State Fault Refusal := ignoreWrite s

/-- Reserved offset 0x024: the write is ignored (R143). -/
def execWrRsvd024 (_data : Word) (s : State) : Host.Outcome State Fault Refusal := ignoreWrite s

/-- Reserved offset 0x028 to 0x02C: the write is ignored (R143). -/
def execWrRsvd028 (_off : Offset) (_data : Word) (s : State) : Host.Outcome State Fault Refusal := ignoreWrite s

/-- Reserved offset 0x030 to 0x03C: the write is ignored (R143). -/
def execWrRsvd030 (_off : Offset) (_data : Word) (s : State) : Host.Outcome State Fault Refusal := ignoreWrite s

/-- Reserved offset 0x040 to 0x07C: the write is ignored (R143). -/
def execWrRsvd040 (_off : Offset) (_data : Word) (s : State) : Host.Outcome State Fault Refusal := ignoreWrite s

/-- Reserved offset 0x080 to 0x0FC: the write is ignored (R143). -/
def execWrRsvd080 (_off : Offset) (_data : Word) (s : State) : Host.Outcome State Fault Refusal := ignoreWrite s

/-- Reserved offset 0x100 to 0x1FC: the write is ignored (R143). -/
def execWrRsvd100 (_off : Offset) (_data : Word) (s : State) : Host.Outcome State Fault Refusal := ignoreWrite s

/-- Reserved offset 0x200 to 0x3FC: the write is ignored (R143). -/
def execWrRsvd200 (_off : Offset) (_data : Word) (s : State) : Host.Outcome State Fault Refusal := ignoreWrite s

/-- Reserved offset 0x400 to 0x7FC: the write is ignored (R143). -/
def execWrRsvd400 (_off : Offset) (_data : Word) (s : State) : Host.Outcome State Fault Refusal := ignoreWrite s

end Sys2Proof.Machine
end

