-- ==== Sys2Proof/Machine/Dispatch.lean ====
section
/-! DEFINITION. The dispatch: one arm per constructor of Instr, each a direct call of its meaning. -/

namespace Sys2Proof.Machine

def exec (i : Instr) (s : State) : Host.Outcome State Fault Refusal :=
  match i with
  | .nop => Sys2Proof.Machine.execNop s
  | .resume => Sys2Proof.Machine.execResume s
  | .decode => Sys2Proof.Machine.execDecode s
  | .send => Sys2Proof.Machine.execSend s
  | .rsvdCmd4to7 op => Sys2Proof.Machine.execRsvdCmd4to7 op s
  | .rsvdCmd8to15 op => Sys2Proof.Machine.execRsvdCmd8to15 op s
  | .busErrSize0 write off => Sys2Proof.Machine.execBusErrSize0 write off s
  | .busErrSize1 write off => Sys2Proof.Machine.execBusErrSize1 write off s
  | .busErrSize3 write off => Sys2Proof.Machine.execBusErrSize3 write off s
  | .busErrMisalign1 write off => Sys2Proof.Machine.execBusErrMisalign1 write off s
  | .busErrMisalign2 write off => Sys2Proof.Machine.execBusErrMisalign2 write off s
  | .busErrMisalign3 write off => Sys2Proof.Machine.execBusErrMisalign3 write off s
  | .rdCaps => Sys2Proof.Machine.execRdCaps s
  | .wrCaps data => Sys2Proof.Machine.execWrCaps data s
  | .rdCmd => Sys2Proof.Machine.execRdCmd s
  | .wrCmd data => Sys2Proof.Machine.execWrCmd data s
  | .rdStatus => Sys2Proof.Machine.execRdStatus s
  | .wrStatus data => Sys2Proof.Machine.execWrStatus data s
  | .rdRawlen => Sys2Proof.Machine.execRdRawlen s
  | .wrRawlen data => Sys2Proof.Machine.execWrRawlen data s
  | .rdTxCode => Sys2Proof.Machine.execRdTxCode s
  | .wrTxCode data => Sys2Proof.Machine.execWrTxCode data s
  | .rdResProto => Sys2Proof.Machine.execRdResProto s
  | .wrResProto data => Sys2Proof.Machine.execWrResProto data s
  | .rdResValue => Sys2Proof.Machine.execRdResValue s
  | .wrResValue data => Sys2Proof.Machine.execWrResValue data s
  | .rdResAddr => Sys2Proof.Machine.execRdResAddr s
  | .wrResAddr data => Sys2Proof.Machine.execWrResAddr data s
  | .rdResInfo => Sys2Proof.Machine.execRdResInfo s
  | .wrResInfo data => Sys2Proof.Machine.execWrResInfo data s
  | .rdRaw k => Sys2Proof.Machine.execRdRaw k s
  | .wrRaw k data => Sys2Proof.Machine.execWrRaw k data s
  | .rdRsvd024 => Sys2Proof.Machine.execRdRsvd024 s
  | .wrRsvd024 data => Sys2Proof.Machine.execWrRsvd024 data s
  | .rdRsvd028 off => Sys2Proof.Machine.execRdRsvd028 off s
  | .wrRsvd028 off data => Sys2Proof.Machine.execWrRsvd028 off data s
  | .rdRsvd030 off => Sys2Proof.Machine.execRdRsvd030 off s
  | .wrRsvd030 off data => Sys2Proof.Machine.execWrRsvd030 off data s
  | .rdRsvd040 off => Sys2Proof.Machine.execRdRsvd040 off s
  | .wrRsvd040 off data => Sys2Proof.Machine.execWrRsvd040 off data s
  | .rdRsvd080 off => Sys2Proof.Machine.execRdRsvd080 off s
  | .wrRsvd080 off data => Sys2Proof.Machine.execWrRsvd080 off data s
  | .rdRsvd100 off => Sys2Proof.Machine.execRdRsvd100 off s
  | .wrRsvd100 off data => Sys2Proof.Machine.execWrRsvd100 off data s
  | .rdRsvd200 off => Sys2Proof.Machine.execRdRsvd200 off s
  | .wrRsvd200 off data => Sys2Proof.Machine.execWrRsvd200 off data s
  | .rdRsvd400 off => Sys2Proof.Machine.execRdRsvd400 off s
  | .wrRsvd400 off data => Sys2Proof.Machine.execWrRsvd400 off data s
  | .sample mark => Sys2Proof.Machine.execSample mark s
  | .txPulse => Sys2Proof.Machine.execTxPulse s
  | .txEnd => Sys2Proof.Machine.execTxEnd s
  | .rst => Sys2Proof.Machine.execRst s

end Sys2Proof.Machine
end

