-- ==== Sys2Proof/Machine/Software.lean ====
section
/-! DEFINITION. The surrounding software as pure functions (48_host_software.md): texts, the numeric parser, the line
assembler, the dispatcher, the report, and the poll loop between its register accesses. -/

namespace Sys2Proof.Machine

/-! ## Texts -/

/-- The bytes of a text. -/
def asciiBytes (cs : List Char) : List Byte := cs.map fun c => BitVec.ofNat 8 c.toNat

/-- The hexadecimal digit of a value below 16, uppercase (R263). -/
def hexDigit (n : Nat) : Byte := BitVec.ofNat 8 (if n < 10 then 48 + n else 55 + n)

/-- The eight hexadecimal digit values of a word, most significant first. -/
def nibbles (v : Word) : List Nat :=
  [7, 6, 5, 4, 3, 2, 1, 0].map fun i => v.toNat / 16 ^ i % 16

/-- `hex(v)`: uppercase, no leading zeros, `0` for zero (R263). -/
def hexText (v : Word) : List Byte :=
  match (nibbles v).dropWhile (· = 0) with
  | [] => [hexDigit 0]
  | ds => ds.map hexDigit

/-- Decimal digits. -/
def decText (n : Nat) : List Byte := asciiBytes (Nat.toDigits 10 n)

/-- `0x`, and the texts of the three command lines (R256). -/
def hexPrefix : List Byte := asciiBytes ['0', 'x']
def helpLine : List Byte := asciiBytes ['h', 'e', 'l', 'p']
def modeRxLine : List Byte := asciiBytes ['i', 'r', ' ', 'm', 'o', 'd', 'e', ' ', 'r', 'x']
def modeTxLine : List Byte := asciiBytes ['i', 'r', ' ', 'm', 'o', 'd', 'e', ' ', 't', 'x']

/-- An echoed line: `"> "` and the line (R255). -/
def echoText (line : List Byte) : List Byte := asciiBytes ['>', ' '] ++ line

/-- `Sent code: 0x<HEX>` (R260, R263). -/
def sentCodeText (code : Word) : List Byte :=
  asciiBytes ['S', 'e', 'n', 't', ' ', 'c', 'o', 'd', 'e', ':', ' '] ++ hexPrefix ++ hexText code

/-! ## The numeric parser -/

/-- A digit of the base (R262). -/
def digitValue (base : Nat) (b : Byte) : Option Nat :=
  let n := b.toNat
  if 48 ≤ n ∧ n ≤ 57 then some (n - 48)
  else if base = 16 ∧ 97 ≤ n ∧ n ≤ 102 then some (n - 87)
  else if base = 16 ∧ 65 ≤ n ∧ n ≤ 70 then some (n - 55)
  else none

/-- The value of digits in the base, after digits worth `acc`; none at a character that is no digit (R262). -/
def digitsValue (base : Nat) : (acc : Nat) → List Byte → Option Nat
  | acc, [] => some acc
  | acc, b :: rest =>
    match digitValue base b with
    | some v => digitsValue base (acc * base + v) rest
    | none => none

/-- Digits to a 32-bit value: no digits, a wrong character and a value of 2^32 or more are InvalidInput (R262). -/
def parseDigits (base : Nat) (digits : List Byte) : Option Word :=
  if digits = [] then none
  else match digitsValue base 0 digits with
    | some v => if v < 2 ^ 32 then some (BitVec.ofNat 32 v) else none
    | none => none

/-- The text starts with `0x` or `0X` (R260, R262). -/
def hasHexPrefix : List Byte → Bool
  | b0 :: b1 :: _ => b0 == 48#8 && (b1 == 120#8 || b1 == 88#8)
  | _ => false

/-- `parse(s, base)`, none for InvalidInput (R262). -/
def parseNumber (text : List Byte) (base : Nat) : Option Word :=
  if base ≠ 10 ∧ base ≠ 16 then none
  else if hasHexPrefix text then
    if base ≠ 16 then none
    else if text.length ≤ 3 then none
    else parseDigits base (text.drop 2)
  else parseDigits base text

/-- What a line in Transmit mode transmits: it needs the prefix and is parsed in base 16 (R260). -/
def transmitCode (line : List Byte) : Option Word :=
  if hasHexPrefix line then parseNumber line 16 else none

/-! ## Line assembly and dispatch -/

/-- The dispatcher on a whole line, exact and case-sensitive (R256 to R261): the software after it, and the code it
transmits, if any. -/
def dispatchLine (line : List Byte) (h : HostSoftware) : HostSoftware × Option Word :=
  if line = helpLine then ({ h with serialOut := h.serialOut ++ [.help] }, none)
  else if line = modeRxLine then
    match h.mode with
    | .transmit => ({ h with mode := .receive, serialOut := h.serialOut ++ [.confirmReceive] }, none)
    | .receive => (h, none)
  else if line = modeTxLine then
    match h.mode with
    | .receive => ({ h with mode := .transmit, serialOut := h.serialOut ++ [.confirmTransmit] }, none)
    | .transmit => (h, none)
  else match h.mode with
    | .transmit => (h, transmitCode line)
    | .receive => (h, none)

/-- The line assembler on one received byte (R254); `rx` is RX_BUFFER_SIZE. A complete line is echoed before its
effect (R255). -/
def acceptByte (rx : Nat) (b : Byte) (h : HostSoftware) : HostSoftware × Option Word :=
  if b = 10#8 ∨ b = 13#8 then
    if h.lineTooLong ∨ h.line = [] then ({ h with line := [], lineTooLong := false }, none)
    else dispatchLine h.line { h with line := [], lineTooLong := false, serialOut := h.serialOut ++ [.echo h.line] }
  else if h.line.length = rx - 1 then ({ h with lineTooLong := true }, none)
  else ({ h with line := h.line ++ [b] }, none)

/-! ## The report -/

/-- The encoding name of a protocol code: the enumeration's spelling, `UNKNOWN` for Unknown (R264, D41). -/
def encodingName (code : Word) : List Byte :=
  asciiBytes <| match code.toNat with
    | 1 => ['N', 'E', 'C']
    | 2 => ['S', 'o', 'n', 'y']
    | 3 => ['R', 'C', '5']
    | 4 => ['R', 'C', '6']
    | 5 => ['D', 'i', 's', 'h']
    | 6 => ['S', 'h', 'a', 'r', 'p']
    | 7 => ['J', 'V', 'C']
    | 8 => ['S', 'a', 'n', 'y', 'o']
    | 9 => ['M', 'i', 't', 's', 'u', 'b', 'i', 's', 'h', 'i']
    | 10 => ['S', 'a', 'm', 's', 'u', 'n', 'g']
    | 11 => ['L', 'G']
    | 12 => ['W', 'h', 'y', 'n', 't', 'e', 'r']
    | 13 => ['A', 'i', 'w', 'a', 'R', 'C', 'T', '5', '0', '1']
    | 14 => ['P', 'a', 'n', 'a', 's', 'o', 'n', 'i', 'c']
    | 15 => ['D', 'e', 'n', 'o', 'n']
    | _ => ['U', 'N', 'K', 'N', 'O', 'W', 'N']

/-- ADDR_PRESENT in the RES_INFO word of a report (R49). -/
def reportAddrPresent (r : Report) : Bool := r.info.getLsbD 8

/-- The value part: hexadecimal, after the address and `:` when one is present (R264). The spelling of the hexadecimal,
uppercase without leading zeros, is DESIGN CHOICE, log 15. -/
def reportValueText (r : Report) : List Byte :=
  (if reportAddrPresent r then hexText r.addr ++ asciiBytes [':'] else []) ++ hexText r.value

/-- The bit count part, decimal (R264). -/
def reportBitsText (r : Report) : List Byte := decText (r.info.extractLsb' 0 8).toNat

/-- The hexadecimal literals of the two `addr` and `data` lines, present only with an address (R264). Their spelling, a
lowercase `0x` and uppercase digits without leading zeros, is DESIGN CHOICE, log 15. -/
def reportAddrData (r : Report) : Option (List Byte × List Byte) :=
  if reportAddrPresent r then some (hexPrefix ++ hexText r.addr, hexPrefix ++ hexText r.value) else none

/-- The durations of a raw dump in microseconds (R265). -/
def reportDurations (cfg : Params) (r : Report) : List Nat := r.raw.map fun d => d.toNat * cfg.usecPerTick

/-- Items separated by commas. -/
def commaSeparated : List (List Byte) → List Byte
  | [] => []
  | [t] => t
  | t :: rest => t ++ asciiBytes [','] ++ commaSeparated rest

/-- The dump `uint16_t rawData[N] = ` with the durations in braces (bytes 7B and 7D) and a semicolon (R265). -/
def rawDumpText (n : Nat) (durationsUs : List Nat) : List Byte :=
  asciiBytes ['u', 'i', 'n', 't', '1', '6', '_', 't', ' ', 'r', 'a', 'w', 'D', 'a', 't', 'a', '['] ++ decText n
    ++ asciiBytes [']', ' ', '=', ' '] ++ [0x7B#8] ++ commaSeparated (durationsUs.map decText)
    ++ [0x7D#8] ++ asciiBytes [';']

/-- The texts that an item of output holds (log 10): the echo (R255), the two commands that help prints (R257; `ir mode rx`
before `ir mode tx` is DESIGN CHOICE, log 10), the usage hint's example (R259), the sent code (R260), and a report's name,
value, bit count, dump, what the dump's trailing comment holds, and the `addr` and `data` literals (R264, R265). The
comment's code as hexadecimal without a prefix, and the spelling of a report's hexadecimal, are DESIGN CHOICE, log 15. -/
def HostOut.texts : HostOut → List (List Byte)
  | .echo line => [echoText line]
  | .help => [modeRxLine, modeTxLine]
  | .confirmReceive => []
  | .confirmTransmit => [hexPrefix ++ hexText 0x10EF#32]
  | .sentCode code => [sentCodeText code]
  | .report r durationsUs =>
    [encodingName r.proto, reportValueText r, reportBitsText r, rawDumpText r.len durationsUs,
      encodingName r.proto, hexText r.value]
    ++ match reportAddrData r with
      | some (addr, value) => [addr, value]
      | none => []

/-! ## The poll loop -/

/-- The register access at a place of the loop, if it makes one (R252, R260, R267). -/
def LoopPc.request : LoopPc → Option Code
  | .txWrite code _ => some (.write Reg.txCode.offset code)
  | .txSend _ _ => some (.write Reg.cmd.offset 3#32)
  | .txWait _ _ => some (.read Reg.status.offset)
  | .pollStatus => some (.read Reg.status.offset)
  | .pollDecode => some (.write Reg.cmd.offset 2#32)
  | .readProto => some (.read Reg.resProto.offset)
  | .readValue _ => some (.read Reg.resValue.offset)
  | .readAddr _ => some (.read Reg.resAddr.offset)
  | .readInfo _ => some (.read Reg.resInfo.offset)
  | .readLen _ => some (.read Reg.rawlen.offset)
  | .readRaw r => some (.read (Offset.ofRaw (BitVec.ofNat 9 r.raw.length)))
  | .resume => some (.write Reg.cmd.offset 1#32)
  | .off | .loopStart | .serial _ | .printReport _ => none

/-- The place after a word of the dump, or RAWLEN, has been read: the next entry below RAWLEN, or the report (R252). -/
def nextRaw (r : Report) : LoopPc := if r.raw.length < r.len then .readRaw r else .printReport r

/-- The software after the access of its place, `w` being the word a read returned (R252, R260). `waittx` waits for
STATUS bit 4 to be 0, `poll_decoder` goes on with bit 6 (R48, R113). -/
def HostSoftware.afterAccess (w : Word) (h : HostSoftware) : HostSoftware :=
  match h.pc with
  | .txWrite code avail => { h with pc := .txSend code avail }
  | .txSend code avail => { h with pc := .txWait code avail }
  | .txWait code avail =>
    if w.getLsbD 4 then h else { h with serialOut := h.serialOut ++ [.sentCode code], pc := .serial avail }
  | .pollStatus => if w.getLsbD 6 then { h with pc := .pollDecode } else { h with pc := .loopStart }
  | .pollDecode => { h with pc := .readProto }
  | .readProto => { h with pc := .readValue { proto := w, value := 0#32, addr := 0#32, info := 0#32, len := 0, raw := [] } }
  | .readValue r => { h with pc := .readAddr { r with value := w } }
  | .readAddr r => { h with pc := .readInfo { r with addr := w } }
  | .readInfo r => { h with pc := .readLen { r with info := w } }
  | .readLen r => { h with pc := nextRaw { r with len := w.toNat } }
  | .readRaw r => { h with pc := nextRaw { r with raw := r.raw ++ [w] } }
  | .resume => { h with pc := .loopStart }
  | .off | .loopStart | .serial _ | .printReport _ => h

/-- A step of the software without an access: the bytes available at the start of an iteration are taken (R251), one byte
is processed (R254), or a report is printed (R264). -/
def HostSoftware.think (cfg : Params) (h : HostSoftware) : HostSoftware :=
  match h.pc with
  | .loopStart =>
    match h.serialIn with
    | [] => { h with pc := .serial [] }
    | burst :: later => { h with pc := .serial burst, serialIn := later }
  | .serial [] => { h with pc := .pollStatus }
  | .serial (b :: rest) =>
    match acceptByte cfg.rxBufferSize b h with
    | (h', some code) => { h' with pc := .txWrite code rest }
    | (h', none) => { h' with pc := .serial rest }
  | .printReport r => { h with serialOut := h.serialOut ++ [.report r (reportDurations cfg r)], pc := .resume }
  | .off => h
  | .txWrite _ _ | .txSend _ _ | .txWait _ _ | .pollStatus | .pollDecode | .readProto | .readValue _ | .readAddr _
  | .readInfo _ | .readLen _ | .readRaw _ | .resume => h

end Sys2Proof.Machine
end

