-- ==== Sys2Proof/Machine/Agents.lean ====
section
/-! DEFINITION. One move of each agent (R16, R86), whose turn it is (R87, R344), and the placing of an access. -/

namespace Sys2Proof.Machine

/-! ## Host-script and stimulus forms -/

/-- `rd REG` (R112). -/
def HostOp.rd (reg : Reg) : HostOp := .access (Descriptor.wordAccess false reg.offset) 0#32

/-- `rd RAW[k]` (R112). -/
def HostOp.rdRaw (k : BitVec 9) : HostOp := .access (Descriptor.wordAccess false (Offset.ofRaw k)) 0#32

/-- `wr REG, imm32` (R112). -/
def HostOp.wr (reg : Reg) (imm : Word) : HostOp := .access (Descriptor.wordAccess true reg.offset) imm

/-- `send imm32` (R113). -/
def HostOp.send (imm : Word) : List HostOp := [.wr .txCode imm, .command 3#32]

/-- `waittx` (R113). -/
def HostOp.waittx : HostOp := .poll .status 0x10#32 0x00#32

/-- `waitready` (R113). -/
def HostOp.waitready : HostOp := .poll .status 0x40#32 0x40#32

/-- `drive M n` and `drive S n`: the level of the next `n` SAMPLE steps (R114). -/
def drive (mark : Level) (n : Nat) : List Level := List.replicate n mark

/-- Pulses of these many ticks, alternating from the level `mark` on (R12, R114). -/
def driveTrain (mark : Level) : List Nat → List Level
  | [] => []
  | d :: rest => drive mark d ++ driveTrain (!mark) rest

/-- `drive NEC frame`: the pulses of `frame`, pulse `i` of `u` units lasting `ticks i u` ticks, then a space of `gap` ticks
(R114). -/
def driveNec (frame : Word) (ticks : (i u : Nat) → Nat) (gap : Nat) : List Level :=
  ((necPulses frame).zipIdx.flatMap fun (q, i) => drive q.level (ticks i q.units)) ++ drive false gap

/-! ## Moves -/

/-- A host access, one atomic step (R86): decoded (R116), performed, and ended (R300). -/
def performAccess (code : Code) (s : State) : Host.Outcome State Fault Refusal := endAccess s (exec (decode code) s)

/-- The first entry of the host program, `rest` following it (R112, R113). -/
def scriptStep (op : HostOp) (rest : List HostOp) (s : State) : Host.Outcome State Fault Refusal :=
  match op with
  | .access desc data => performAccess (.bus desc data) { s with script := rest }
  | .command word => performAccess (.cmd word) { s with script := rest }
  | .bus write addr size data =>
    match busDescriptor s.cfg write addr size with
    | some desc => performAccess (.bus desc data) { s with script := rest }
    | none => .fault (.outsideWindow addr)
  | .poll reg mask val =>
    match performAccess (.read reg.offset) s with
    | .next t => if t.lastRead &&& mask = val then .next { t with script := rest } else .next t
    | .fault f => .fault f
    | .refused r => .refused r
  | .startLoop => .next { s with script := rest, host := { s.host with pc := .loopStart } }

/-- One step of the surrounding software (R251, R252): the access at its place, or a step of its own. -/
def softwareStep (s : State) : Host.Outcome State Fault Refusal :=
  match s.host.pc.request with
  | none => .next { s with host := s.host.think s.cfg }
  | some code =>
    match performAccess code s with
    | .next t => .next { t with host := t.host.afterAccess t.lastRead }
    | .fault f => .fault f
    | .refused r => .refused r

/-- The host's move: its program first, then the surrounding software. -/
def hostTurn (s : State) : Host.Outcome State Fault Refusal :=
  match s.script with
  | op :: rest => scriptStep op rest s
  | [] => softwareStep s

/-- The environment's next level and the state after it is driven (R222): of its pending levels, then space for a finite
stimulus (R343), the level it holds for ever (R231), or a free one (K1-20). -/
def State.nextLevel (s : State) : Level × State :=
  match s.irIn, s.irTail with
  | mark :: later, _ => (mark, { s with irIn := later })
  | [], .over => (false, s)
  | [], .hold mark => (mark, s)
  | [], .free source n => (Config.irSource source n, { s with irTail := .free source (n + 1) })

/-- A tick (R220): one SAMPLE step of the environment's next level, and none while `tx_busy` is 1 (R228). -/
def tickTurn (s : State) : Host.Outcome State Fault Refusal :=
  if s.txBusy then .next s else exec (.sample s.nextLevel.1) s.nextLevel.2

/-- During a transmission a level passes unseen (R337); otherwise every level is for a SAMPLE step (R114; log 5). -/
def unseenTurn (s : State) : Host.Outcome State Fault Refusal :=
  if s.txBusy then .next s.nextLevel.2 else .next s

/-- The transmitter's move (R198, R199). -/
def txTurn (s : State) : Host.Outcome State Fault Refusal :=
  if s.txIdx = 67#7 then exec .txEnd s else exec .txPulse s

/-- The move of one agent; `rst` overrides every step (R306). -/
def runTurn (t : Turn) (s : State) : Host.Outcome State Fault Refusal :=
  match t with
  | .host => hostTurn s
  | .tick => tickTurn s
  | .tx => txTurn s
  | .rst => exec .rst s
  | .unseen => unseenTurn s

/-- The host has an access or a software step to make. -/
def State.hostHasWork (s : State) : Bool := !s.script.isEmpty || s.host.pc != .off

/-- Whose turn it is: the agenda's, and without one the host and the block's own agents by turns (R344; log 5). -/
def State.nextTurn (s : State) : Turn :=
  match s.agenda with
  | t :: _ => t
  | [] => if s.hostNext && s.hostHasWork then .host else if s.txBusy then .tx else .tick

/-- The schedule after a turn has been given. -/
def State.passTurn (s : State) : State :=
  match s.agenda with
  | _ :: later => { s with agenda := later }
  | [] => { s with hostNext := !s.hostNext }

/-- The host-program entry that makes the access of a code. -/
def HostOp.ofCode : Code → HostOp
  | .bus desc data => .access desc data
  | .cmd word => .command word

/-- The code placed as the host's next access, and the host's turn next. -/
def State.placeAccess (s : State) (code : Code) : State :=
  { s with script := HostOp.ofCode code :: s.script, agenda := .host :: s.agenda }

end Sys2Proof.Machine
end

