-- ==== Sys2Proof/Machine/Step.lean ====
section
/-! DEFINITION. One step of the machine, and the placing of an instruction for the host's probe. -/

namespace Sys2Proof.Machine

/-- One step: one atomic move of the agent whose turn it is (R86). -/
def step (s : State) : Host.Outcome State Fault Refusal := runTurn s.nextTurn s.passTurn

/-- The table's instruction of `nbits` bits `w` as the host's next access, so that the next step performs it. -/
def State.withFetchWord (s : State) (nbits w : Nat) : State := s.placeAccess (tableCode nbits w)

end Sys2Proof.Machine
end

