-- ==== Sys2Proof/Safety.lean ====
section
/-! DEFINITION. What claims are stated in: the invariants of the reachable states (R37, R38, R39, R41, R200), the end of a
run (R343), sequences of steps, and captures within the quantisation bound (R24, R232). -/

namespace Sys2Proof.Machine

/-! ## Invariants -/

/-- The capture state's invariants (R37, R41). -/
abbrev State.CaptureOk (s : State) : Prop :=
  (s.capState = .idle → s.buf = [] ∧ s.ovf = false)
  ∧ (s.capState = .receiving →
      s.buf.length < s.cfg.rawbuf ∧ s.ovf = false ∧ 1 ≤ s.capCnt.toNat
      ∧ (s.capLevel = true ↔ s.buf.length % 2 = 0)
      ∧ (s.capLevel = false → s.capCnt.toNat < s.cfg.gapTicks))
  ∧ (s.capState = .frameComplete → s.buf.length < s.cfg.rawbuf ∧ s.buf.length % 2 = 1 ∧ s.ovf = false)
  ∧ (s.capState = .overflow → s.buf.length = s.cfg.rawbuf ∧ s.ovf = true)

/-- Every recorded entry is at least 1, and every recorded space is shorter than the gap (R41). -/
abbrev State.EntriesOk (s : State) : Prop :=
  ∀ k, (h : k < s.buf.length) → 1 ≤ s.buf[k].toNat ∧ (k % 2 = 1 → s.buf[k].toNat < s.cfg.gapTicks)

/-- The transmitter's invariants: while busy the index is that of a pulse (R45), the output has the level of the pulse
emitted last (R200), the frame carries the mask (R44) and the pulses emitted so far are the last of `wire_out` (R198);
otherwise the output is space (R200). -/
abbrev State.TxOk (s : State) : Prop :=
  (s.txBusy = true →
    s.txIdx.toNat ≤ 66 ∧ s.irTx = decide (s.txIdx.toNat % 2 = 1) ∧ necFrame s.txFrame = s.txFrame
      ∧ (necPulses s.txFrame).take s.txIdx.toNat <:+ s.wireOut)
  ∧ (s.txBusy = false → s.irTx = false)

/-- The result registers' invariants: a valid result is that of the snapshot still held (R38); an absent address reads 0
(R150); an Unknown result has value 0, count 0 and no address (R158); only it can carry the overflow flag. -/
abbrev State.ResultOk (s : State) : Prop :=
  (s.resValid = true → s.ready = true ∧ s.writeResult (decodeTrain s.cfg s.buf s.ovf) = s)
  ∧ (s.resAddrPresent = false → s.resAddr = 0#32)
  ∧ (s.resProto = 0#4 → s.resValue = 0#32 ∧ s.resBits = 0#8 ∧ s.resAddrPresent = false)
  ∧ (s.resOvf = true → s.resProto = 0#4)

/-- The state's invariant. -/
abbrev State.Inv (s : State) : Prop :=
  s.cfg.Valid ∧ s.CaptureOk ∧ s.EntriesOk ∧ s.TxOk ∧ s.ResultOk

/-! ## Runs -/

/-- No host access has been answered with an error response, the premise of claims about a run's end (R343). -/
abbrev State.NoBusError (s : State) : Prop := s.busErrors = []

/-- A run of a host program is over (R343): its last access is made, no transmission is in progress, no frame is being
received, the stimulus is driven, which an endless one never is (R339), and no access faulted. -/
abbrev State.RunOver (s : State) : Prop :=
  s.script = [] ∧ s.host.pc = .off ∧ s.txBusy = false ∧ s.capState ≠ .receiving ∧ s.irIn = []
  ∧ s.irTail = .over ∧ s.NoBusError

/-- What is observed at the end of a run (R343): everything but the unspecified `tick_phase` and the schedule. -/
def State.observed (s : State) : State :=
  { s with tickPhase := 0, freeCount := 0, agenda := [], hostNext := true }

/-- Instructions performed one after another, stopping at the first that answers no next state. -/
def execAll : List Instr → State → Host.Outcome State Fault Refusal
  | [], s => .next s
  | i :: rest, s =>
    match exec i s with
    | .next t => execAll rest t
    | .fault f => .fault f
    | .refused r => .refused r

/-- `n` steps of the machine, stopping at the first that answers no next state. -/
def run : Nat → State → Host.Outcome State Fault Refusal
  | 0, s => .next s
  | n + 1, s =>
    match step s with
    | .next t => run n t
    | .fault f => .fault f
    | .refused r => .refused r

/-- The SAMPLE steps of a stimulus (R114, R222). -/
def sampleSteps (stimulus : List Level) : List Instr := stimulus.map .sample

/-! ## Captures -/

/-- A count within one tick of a pulse of `units` NEC units: `|d * USECPERTICK - D| < USECPERTICK` (R232). -/
abbrev Quantised (p : Params) (d units : Nat) : Prop :=
  d * p.usecPerTick * 1000 < units * Config.necUnitNs + p.usecPerTick * 1000
  ∧ units * Config.necUnitNs < d * p.usecPerTick * 1000 + p.usecPerTick * 1000

/-- The ticks are short enough for the round trip (R24). -/
abbrev RoundTripTicks (p : Params) : Prop := 200 * p.usecPerTick ≤ 1125 * p.tolPct

/-- The software keeps its send discipline: the host runs nothing else, and a transmission in progress is one it waits
for (R267). -/
abbrev State.SendDiscipline (s : State) : Prop :=
  s.script = [] ∧ (s.txBusy = true → ∃ code avail, s.host.pc = .txWait code avail)

/-! ## Matchers -/

/-- The entries `rest` of a train of format `f` read as `read` in the end, after the readings `before`, within the contract
of R160: every other pulse in the band of a nominal duration its place admits (f), every bit on its side of the midpoint and
in its own band (d, f), no entry beyond the train (b). -/
inductive ReadsAs (p : Params) (f : MatcherFormat) (length : Nat) :
    (before : List Reading) → (rest : List Ticks) → (read : List Reading) → Prop where
  | stop {before rest} (h : f.slot length before = .stop) : ReadsAs p f length before rest before
  | pulse {before d rest read nominalsNs} (nominalNs : Nat) (h : f.slot length before = .pulse nominalsNs)
      (hn : nominalNs ∈ nominalsNs) (hd : inBandNs p d nominalNs = true)
      (hr : ReadsAs p f length (before ++ [.pulse nominalNs]) rest read) : ReadsAs p f length before (d :: rest) read
  | zero {before d rest read} (h : f.slot length before = .bit) (hd : inBandNs p d f.zeroNs = true)
      (hm : if f.zeroNs ≤ f.oneNs then 2 * tickNs p d ≤ f.zeroNs + f.oneNs else f.zeroNs + f.oneNs ≤ 2 * tickNs p d)
      (hr : ReadsAs p f length (before ++ [.bit false]) rest read) : ReadsAs p f length before (d :: rest) read
  | one {before d rest read} (h : f.slot length before = .bit) (hd : inBandNs p d f.oneNs = true)
      (hm : if f.zeroNs ≤ f.oneNs then f.zeroNs + f.oneNs ≤ 2 * tickNs p d else 2 * tickNs p d ≤ f.zeroNs + f.oneNs)
      (hr : ReadsAs p f length (before ++ [.bit true]) rest read) : ReadsAs p f length before (d :: rest) read

/-! ## What an instruction is -/

/-- The register reads (R133). -/
def isRead : Instr → Bool
  | .rdCaps | .rdCmd | .rdStatus | .rdRawlen | .rdTxCode | .rdResProto | .rdResValue | .rdResAddr | .rdResInfo
  | .rdRaw _ | .rdRsvd024 | .rdRsvd028 _ | .rdRsvd030 _ | .rdRsvd040 _ | .rdRsvd080 _ | .rdRsvd100 _ | .rdRsvd200 _
  | .rdRsvd400 _ => true
  | _ => false

/-- The instruction is the end of the transmission in progress (R199): the step of pulse 66, or TX_END once the 67 pulses are
out (log 14). -/
abbrev EndsTransmission (i : Instr) (s : State) : Prop :=
  s.txBusy = true ∧ (i = .txPulse ∧ s.txIdx = 66#7 ∨ i = .txEnd ∧ s.txIdx = 67#7)

/-- The command a CMD write or a command word names, by its OP (R103). -/
def commandOp : Instr → Option (BitVec 4)
  | .nop => some 0#4
  | .resume => some 1#4
  | .decode => some 2#4
  | .send => some 3#4
  | .rsvdCmd4to7 op => some op
  | .rsvdCmd8to15 op => some op
  | .wrCmd data => some (Word.opField data)
  | _ => none

end Sys2Proof.Machine
end

