-- ==== Sys2Proof/Certificates/Slice0/Obligations.lean ====
section
/-! DEFINITION. The statements for the provers, in the order of OBLIGATIONS.json. Each docstring names the rule it formalises.
An equation `exec i s = .next { s with … }` states the instruction's result, its completion and its whole frame: every
element of the state that the record update does not name is unchanged (the block has no byte memory, R91). -/

open Sys2Proof Sys2Proof.Machine

/-! ## Commands -/

/-- R131: NOP clears `cmd_err`, and no other state changes. -/
def Obligations.NopClearsOnlyCommandError : Prop :=
  ∀ s : State, exec .nop s = .next { s with cmdErr := false }

/-- R132: a reserved command sets `cmd_err`, and nothing else changes; the flag then stays set through RESUME, DECODE and
SEND. -/
def Obligations.ReservedCommandsSetOnlyCommandError : Prop :=
  ∀ (op : BitVec 4) (s : State),
    exec (.rsvdCmd4to7 op) s = .next { s with cmdErr := true }
    ∧ exec (.rsvdCmd8to15 op) s = .next { s with cmdErr := true }
    ∧ ∀ (i : Instr) (t : State), i = .resume ∨ i = .decode ∨ i = .send →
      exec i s = .next t → s.cmdErr = true → t.cmdErr = true

/-- R130: a CMD write always completes; it performs the command of its low four bits, and `d[31:4]` never matters. -/
def Obligations.CmdWritePerformsTheCommandOfItsLowNibble : Prop :=
  ∀ (d : Word) (s : State),
    (∃ t, exec (.wrCmd d) s = .next t)
    ∧ (d.toNat % 16 = 0 → exec (.wrCmd d) s = exec .nop s)
    ∧ (d.toNat % 16 = 1 → exec (.wrCmd d) s = exec .resume s)
    ∧ (d.toNat % 16 = 2 → exec (.wrCmd d) s = exec .decode s)
    ∧ (d.toNat % 16 = 3 → exec (.wrCmd d) s = exec .send s)
    ∧ (4 ≤ d.toNat % 16 → exec (.wrCmd d) s = .next { s with cmdErr := true })
    ∧ ∀ d' : Word, d'.toNat % 16 = d.toNat % 16 → exec (.wrCmd d') s = exec (.wrCmd d) s

/-- R229: RESUME empties the capture unit and clears `ovf` and `res_valid`; the result registers, `cmd_err` and the
transmitter are not written. -/
def Obligations.ResumeEmptiesTheCaptureUnit : Prop :=
  ∀ s : State,
    exec .resume s = .next { s with
      capState := .idle, buf := [], ovf := false, capCnt := 0#16, capLevel := false, resValid := false }

/-- R156, R150, R166: DECODE of a held snapshot writes the six result registers from `decode(rawlen, buf, ovf)` and sets
`res_valid`; in Idle and Receiving it only clears `res_valid`. -/
def Obligations.DecodeWritesTheResultOfTheSnapshot : Prop :=
  ∀ s : State,
    (s.capState = .frameComplete ∨ s.capState = .overflow →
      exec .decode s = .next { s with
        resProto := protocolCode (decodeTrain s.cfg s.buf s.ovf).protocol
        resValue := (decodeTrain s.cfg s.buf s.ovf).value
        resAddr := (decodeTrain s.cfg s.buf s.ovf).address.getD 0#32
        resAddrPresent := (decodeTrain s.cfg s.buf s.ovf).address.isSome
        resBits := (decodeTrain s.cfg s.buf s.ovf).bitCount
        resOvf := (decodeTrain s.cfg s.buf s.ovf).overflow
        resValid := true })
    ∧ (s.capState = .idle ∨ s.capState = .receiving → exec .decode s = .next { s with resValid := false })

/-- R168: after a DECODE of a held snapshot, whatever instructions fall between other than RESUME (and reset), a second DECODE
changes nothing: the result registers are those of the first, and `res_valid` is 1. -/
def Obligations.DecodeIsIdempotentOnAHeldSnapshot : Prop :=
  ∀ (s t u : State) (between : List Instr), s.capState = .frameComplete ∨ s.capState = .overflow →
    exec .decode s = .next t → (∀ i ∈ between, i ≠ .rst ∧ commandOp i ≠ some 1#4) → execAll between t = .next u →
    exec .decode u = .next u ∧ u.resValid = true ∧ u.resProto = t.resProto ∧ u.resValue = t.resValue
    ∧ u.resAddr = t.resAddr ∧ u.resAddrPresent = t.resAddrPresent ∧ u.resBits = t.resBits ∧ u.resOvf = t.resOvf

/-- R196, R197, R192: SEND latches `0x20DF0000 | tx_code` and starts the transmission; while one is in progress it only
sets `cmd_err`. -/
def Obligations.SendLatchesTheMaskedFrame : Prop :=
  ∀ s : State,
    (s.txBusy = false →
      exec .send s = .next { s with txFrame := 0x20DF0000#32 ||| s.txCode, txIdx := 0#7, txBusy := true })
    ∧ (s.txBusy = true → exec .send s = .next { s with cmdErr := true })

/-! ## Register accesses -/

/-- R134: CAPS reads `{USECPERTICK[15:0], RAWBUF[15:0]}`, and no instruction, reset included, changes the parameters. -/
def Obligations.CapsReadsTheBuildParameters : Prop :=
  ∀ s : State, ∃ w : Word,
    exec .rdCaps s = .next { s with reads := s.reads ++ [w] }
    ∧ w.toNat = s.cfg.usecPerTick % 65536 * 65536 + s.cfg.rawbuf % 65536
    ∧ ∀ (i : Instr) (t : State), exec i s = .next t → t.cfg = s.cfg

/-- R135: STATUS packs the state code and the five flags, and reads 0 above bit 6; in Overflow it is 0x47 or more. -/
def Obligations.StatusReadPacksTheFlags : Prop :=
  ∀ s : State, ∃ w : Word,
    exec .rdStatus s = .next { s with reads := s.reads ++ [w] }
    ∧ w.toNat =
      (match s.capState with | .idle => 0 | .receiving => 1 | .frameComplete => 2 | .overflow => 3)
      + 4 * s.ovf.toNat + 8 * s.resValid.toNat + 16 * s.txBusy.toNat + 32 * s.cmdErr.toNat
      + 64 * (match s.capState with | .idle | .receiving => 0 | .frameComplete | .overflow => 1)
    ∧ (s.CaptureOk → s.capState = .overflow → 0x47 ≤ w.toNat)

/-- R136, R138, R140, R142: the words of RAWLEN (RAWBUF in Overflow), TX_CODE, the result registers and CMD. -/
def Obligations.RegisterReadsAnswerTheirFields : Prop :=
  ∀ s : State,
    (∃ w : Word, exec .rdRawlen s = .next { s with reads := s.reads ++ [w] } ∧ w.toNat = s.buf.length % 65536
      ∧ (s.cfg.Valid → s.CaptureOk → s.capState = .overflow → w.toNat = s.cfg.rawbuf))
    ∧ exec .rdTxCode s = .next { s with reads := s.reads ++ [s.txCode] }
    ∧ (∃ w : Word, exec .rdResProto s = .next { s with reads := s.reads ++ [w] } ∧ w.toNat = s.resProto.toNat)
    ∧ exec .rdResValue s = .next { s with reads := s.reads ++ [s.resValue] }
    ∧ exec .rdResAddr s = .next { s with reads := s.reads ++ [s.resAddr] }
    ∧ (∃ w : Word, exec .rdResInfo s = .next { s with reads := s.reads ++ [w] }
        ∧ w.toNat = s.resBits.toNat + 256 * s.resAddrPresent.toNat + 512 * s.resOvf.toNat)
    ∧ exec .rdCmd s = .next { s with reads := s.reads ++ [0#32] }

/-- R143: a legal read of a reserved offset, 0x024 to 0x7FC, answers 0 and a legal write changes nothing, whatever the
offset and the data. -/
def Obligations.ReservedOffsetsReadZeroAndIgnoreWrites : Prop :=
  ∀ (off : Offset) (d : Word) (s : State), 0x024 ≤ off.toNat → off.toNat ≤ 0x7FC → off.toNat % 4 = 0 →
    exec (decodeBus (Descriptor.wordAccess false off) d) s = .next { s with reads := s.reads ++ [0#32] }
    ∧ exec (decodeBus (Descriptor.wordAccess true off) d) s = .next s

/-- R143, by instruction: the reads and writes of the table's eight reserved blocks. -/
def Obligations.ReservedBlocksReadZeroAndIgnoreWrites : Prop :=
  ∀ (off : Offset) (d : Word) (s : State),
    exec .rdRsvd024 s = .next { s with reads := s.reads ++ [0#32] } ∧ exec (.wrRsvd024 d) s = .next s
    ∧ exec (.rdRsvd028 off) s = .next { s with reads := s.reads ++ [0#32] } ∧ exec (.wrRsvd028 off d) s = .next s
    ∧ exec (.rdRsvd030 off) s = .next { s with reads := s.reads ++ [0#32] } ∧ exec (.wrRsvd030 off d) s = .next s
    ∧ exec (.rdRsvd040 off) s = .next { s with reads := s.reads ++ [0#32] } ∧ exec (.wrRsvd040 off d) s = .next s
    ∧ exec (.rdRsvd080 off) s = .next { s with reads := s.reads ++ [0#32] } ∧ exec (.wrRsvd080 off d) s = .next s
    ∧ exec (.rdRsvd100 off) s = .next { s with reads := s.reads ++ [0#32] } ∧ exec (.wrRsvd100 off d) s = .next s
    ∧ exec (.rdRsvd200 off) s = .next { s with reads := s.reads ++ [0#32] } ∧ exec (.wrRsvd200 off d) s = .next s
    ∧ exec (.rdRsvd400 off) s = .next { s with reads := s.reads ++ [0#32] } ∧ exec (.wrRsvd400 off d) s = .next s

/-- R137: `RAW[k]` reads the entry, zero-extended, below `rawlen` and 0 at or beyond it; with the capture unit's invariant
that is every `k >= RAWBUF`. -/
def Obligations.RawReadAnswersTheEntryOrZero : Prop :=
  ∀ (s : State) (k : BitVec 9),
    (∀ h : k.toNat < s.buf.length, ∃ w : Word,
      exec (.rdRaw k) s = .next { s with reads := s.reads ++ [w] } ∧ w.toNat = s.buf[k.toNat].toNat)
    ∧ (s.buf.length ≤ k.toNat → exec (.rdRaw k) s = .next { s with reads := s.reads ++ [0#32] })
    ∧ (s.cfg.Valid → s.CaptureOk → s.cfg.rawbuf ≤ k.toNat →
        exec (.rdRaw k) s = .next { s with reads := s.reads ++ [0#32] })

/-- R139: a TX_CODE write stores all 32 bits and changes nothing else. -/
def Obligations.TxCodeWriteStoresTheWord : Prop :=
  ∀ (d : Word) (s : State), exec (.wrTxCode d) s = .next { s with txCode := d }

/-- R141: writes to read-only registers and to the RAW window change nothing. -/
def Obligations.ReadOnlyRegistersIgnoreWrites : Prop :=
  ∀ (d : Word) (k : BitVec 9) (s : State),
    exec (.wrCaps d) s = .next s ∧ exec (.wrStatus d) s = .next s ∧ exec (.wrRawlen d) s = .next s
    ∧ exec (.wrResProto d) s = .next s ∧ exec (.wrResValue d) s = .next s ∧ exec (.wrResAddr d) s = .next s
    ∧ exec (.wrResInfo d) s = .next s ∧ exec (.wrRaw k d) s = .next s

/-- R85 for reads: a read changes nothing but the log of answers, and read again it answers the same word. -/
def Obligations.ReadsHaveNoSideEffect : Prop :=
  ∀ (i : Instr) (s : State), isRead i = true → ∃ w : Word,
    exec i s = .next { s with reads := s.reads ++ [w] }
    ∧ exec i { s with reads := s.reads ++ [w] } = .next { s with reads := s.reads ++ [w] ++ [w] }

/-- R51: what a read answers does not depend on the hidden state. -/
def Obligations.ReadsDoNotRevealHiddenState : Prop :=
  ∀ (i : Instr) (s : State) (level : Level) (cnt : Ticks) (frame : Word) (idx : BitVec 7) (out : Level) (phase : Nat),
    isRead i = true → ∃ w : Word,
      exec i s = .next { s with reads := s.reads ++ [w] }
      ∧ exec i { s with capLevel := level, capCnt := cnt, txFrame := frame, txIdx := idx, irTx := out, tickPhase := phase }
        = .next { s with
            capLevel := level, capCnt := cnt, txFrame := frame, txIdx := idx, irTx := out, tickPhase := phase
            reads := s.reads ++ [w] }

/-- R300: each of the refused accesses is a fault of the access, with the bus address IRC_BASE + OFFSET. -/
def Obligations.RefusedAccessesAreBusErrors : Prop :=
  ∀ (write : Bool) (off : Offset) (s : State),
    exec (.busErrSize0 write off) s = .fault (.busError (s.cfg.ircBase + off.toNat))
    ∧ exec (.busErrSize1 write off) s = .fault (.busError (s.cfg.ircBase + off.toNat))
    ∧ exec (.busErrSize3 write off) s = .fault (.busError (s.cfg.ircBase + off.toNat))
    ∧ exec (.busErrMisalign1 write off) s = .fault (.busError (s.cfg.ircBase + off.toNat))
    ∧ exec (.busErrMisalign2 write off) s = .fault (.busError (s.cfg.ircBase + off.toNat))
    ∧ exec (.busErrMisalign3 write off) s = .fault (.busError (s.cfg.ircBase + off.toNat))

/-- R82: an access whose SIZE is not 2 or whose offset is not a multiple of 4 is answered with a bus error; every other
access, whatever its offset, direction and data, completes. -/
def Obligations.OnlyAlignedWordAccessesComplete : Prop :=
  ∀ (desc : Descriptor) (data : Word) (s : State),
    (desc.toNat / 8192 ≠ 2 ∨ desc.toNat % 4 ≠ 0 →
      exec (decodeBus desc data) s = .fault (.busError (s.cfg.ircBase + desc.toNat % 4096)))
    ∧ (desc.toNat / 8192 = 2 → desc.toNat % 4 = 0 → ∃ t, exec (decodeBus desc data) s = .next t)

/-! ## Transmitter -/

/-- R191, R190: pulse `k` of a frame, and that there are 67. -/
def Obligations.NecPulseSequence : Prop :=
  ∀ (frame : Word) (k : Nat),
    (necPulses frame)[k]? =
      if 67 ≤ k then none
      else some { level := k % 2 = 0
                  units := if k = 0 then 16 else if k = 1 then 8 else if k % 2 = 0 then 1
                           else if frame.getLsbD ((k - 3) / 2) then 3 else 1 }

/-- R194: a frame lasts `89 + 2 * popcount(F)` units, a masked one between 105 and 153. -/
def Obligations.FrameDuration : Prop :=
  ∀ frame code : Word,
    ((necPulses frame).map Pulse.units).sum = 89 + 2 * (List.range 32).countP (frame.getLsbD ·)
    ∧ 105 ≤ ((necPulses (necFrame code)).map Pulse.units).sum
    ∧ ((necPulses (necFrame code)).map Pulse.units).sum ≤ 153

/-- R198, R199, R228: the pulse step of a transmission in progress, for a pulse before the last, and for the last, which
ends the transmission and discards a frame being received. -/
def Obligations.TransmitterPulseStep : Prop :=
  ∀ (s : State) (p : Pulse), s.txBusy = true → (necPulses s.txFrame)[s.txIdx.toNat]? = some p →
    (s.txIdx.toNat < 66 →
      exec .txPulse s = .next { s with irTx := p.level, wireOut := s.wireOut ++ [p], txIdx := s.txIdx + 1#7 })
    ∧ (s.txIdx.toNat = 66 → s.capState ≠ .receiving →
      exec .txPulse s = .next { s with irTx := false, wireOut := s.wireOut ++ [p], txIdx := 67#7, txBusy := false })
    ∧ (s.txIdx.toNat = 66 → s.capState = .receiving →
      exec .txPulse s = .next { s with
        irTx := false, wireOut := s.wireOut ++ [p], txIdx := 67#7, txBusy := false
        capState := .idle, buf := [], capCnt := 0#16, capLevel := false })

/-- R199, R228: the end of a transmission whose 67 pulses are out. That TX_END is enabled there, in states that no run from
reset reaches because TX_PULSE of pulse 66 ends the transmission itself, is the model's reading (log 14). -/
def Obligations.TransmissionEnd : Prop :=
  ∀ s : State, s.txBusy = true → s.txIdx = 67#7 →
    (s.capState ≠ .receiving → exec .txEnd s = .next { s with irTx := false, txBusy := false })
    ∧ (s.capState = .receiving →
      exec .txEnd s = .next { s with
        irTx := false, txBusy := false, capState := .idle, buf := [], capCnt := 0#16, capLevel := false })

/-- R198, R199: from SEND on, 67 pulse steps emit exactly the frame's pulses, in order, and end the transmission; before
the 67th it is still in progress. -/
def Obligations.TransmissionEmitsExactlyItsFrame : Prop :=
  ∀ s : State, s.txBusy = true → s.txIdx = 0#7 →
    (∀ n, n < 67 → ∃ t, execAll (List.replicate n .txPulse) s = .next t ∧ t.txBusy = true
      ∧ t.wireOut = s.wireOut ++ (necPulses s.txFrame).take n)
    ∧ ∃ t, execAll (List.replicate 67 .txPulse) s = .next t ∧ t.txBusy = false ∧ t.irTx = false
      ∧ t.wireOut = s.wireOut ++ necPulses s.txFrame ∧ t.cmdErr = s.cmdErr ∧ t.txCode = s.txCode
      ∧ (s.capState ≠ .receiving → t.capState = s.capState ∧ t.buf = s.buf ∧ t.ovf = s.ovf)

/-- R39, R198, R199: nothing but the step that emits the last pulse, TX_END once all pulses are out, and reset clears
`tx_busy`. That TX_END is enabled at index 67, and there alone, is the model's reading (log 14). -/
def Obligations.TransmissionIsNeverCutShort : Prop :=
  ∀ (i : Instr) (s t : State), exec i s = .next t → s.txBusy = true → t.txBusy = false →
    i = .rst ∨ (i = .txPulse ∧ s.txIdx = 66#7) ∨ (i = .txEnd ∧ s.txIdx = 67#7)

/-- R43, R44: only TX_CODE writes and reset change `tx_code`; only SEND while idle and reset change `tx_frame`, and a frame
being transmitted keeps its value under everything but reset. -/
def Obligations.TransmitterRegistersHaveTheirOnlyWriters : Prop :=
  ∀ (i : Instr) (s t : State), exec i s = .next t →
    (t.txCode ≠ s.txCode → i = .rst ∨ ∃ d, i = .wrTxCode d)
    ∧ (t.txFrame ≠ s.txFrame → i = .rst ∨ (commandOp i = some 3#4 ∧ s.txBusy = false))

/-! ## Capture -/

/-- R224: in Idle a mark begins a frame, and a space changes nothing. -/
def Obligations.SampleInIdle : Prop :=
  ∀ s : State, s.txBusy = false → s.capState = .idle →
    exec (.sample true) s = .next { s with capState := .receiving, capLevel := true, capCnt := 1#16 }
    ∧ exec (.sample false) s = .next s

/-- R223: a sample at the level being timed counts, saturating at 65535; the space that reaches GAP_TICKS completes the
frame, and is not recorded. -/
def Obligations.SampleAtTheSameLevelCounts : Prop :=
  ∀ s : State, s.txBusy = false → s.capState = .receiving → ∃ c : Ticks,
    c.toNat = min (s.capCnt.toNat + 1) 65535
    ∧ ((s.capLevel = true ∨ c.toNat < s.cfg.gapTicks) → exec (.sample s.capLevel) s = .next { s with capCnt := c })
    ∧ (s.capLevel = false → s.cfg.gapTicks ≤ c.toNat →
      exec (.sample s.capLevel) s = .next { s with capCnt := c, capState := .frameComplete })

/-- R225, R226: an edge records the pulse that ended; a buffer it fills is an overflow, otherwise the new pulse begins. -/
def Obligations.SampleAtAnEdgeRecords : Prop :=
  ∀ s : State, s.txBusy = false → s.capState = .receiving →
    (s.buf.length + 1 ≠ s.cfg.rawbuf →
      exec (.sample (!s.capLevel)) s =
        .next { s with buf := s.buf ++ [s.capCnt], capLevel := !s.capLevel, capCnt := 1#16 })
    ∧ (s.buf.length + 1 = s.cfg.rawbuf →
      exec (.sample (!s.capLevel)) s =
        .next { s with buf := s.buf ++ [s.capCnt], capState := .overflow, ovf := true })

/-- R225: an entry once written is not rewritten: only the whole buffer is emptied, by RESUME, by reset, and by the end of
a transmission during Receiving (the model enables that end at pulse 66 and at TX_END with all 67 pulses out, log 14);
otherwise only a sample appends to it. -/
def Obligations.BufferEntriesAreWrittenOnce : Prop :=
  ∀ (i : Instr) (s t : State), exec i s = .next t → t.buf ≠ s.buf →
    (∃ mark, i = .sample mark ∧ t.buf = s.buf ++ [s.capCnt])
    ∨ (t.buf = [] ∧ (i = .rst ∨ commandOp i = some 1#4
        ∨ (EndsTransmission i s ∧ t.txBusy = false ∧ s.capState = .receiving)))

/-- R227: a sample changes nothing while a snapshot is held. R220, R228: none is taken while a transmission is in progress;
that a SAMPLE which is not enabled then changes nothing is the model's choice (log 14). -/
def Obligations.HeldOrSuspendedCaptureIgnoresSamples : Prop :=
  ∀ (mark : Level) (s : State),
    s.capState = .frameComplete ∨ s.capState = .overflow ∨ s.txBusy = true → exec (.sample mark) s = .next s

/-- R231, R339: a mark that does not end keeps the capture unit in Receiving, whatever its length; the count saturates. An
environment that holds a mark for ever (log 16) keeps every run there, however ticks and host turns are ordered, for a host
that does nothing and for one that polls READY. -/
def Obligations.NeverEndingMarkStaysReceiving : Prop :=
  ∀ (n : Nat) (s : State), s.txBusy = false → s.capState = .receiving → s.capLevel = true →
    (∃ c : Ticks, execAll (sampleSteps (drive true n)) s = .next { s with capCnt := c }
      ∧ c.toNat = min (s.capCnt.toNat + n) 65535)
    ∧ (s.irIn = [] → s.irTail = .hold true → .rst ∉ s.agenda →
      (s.script = [] ∧ s.host.pc = .off) ∨ (∃ rest, s.script = HostOp.waitready :: rest) →
      ∃ t, run n s = .next t ∧ t.capState = .receiving ∧ t.buf = s.buf ∧ t.script = s.script ∧ ¬ t.RunOver)

/-- R221: the transitions of the capture state, each with its event, and that there are no others. When the model's
transmission ends is log 14's. -/
def Obligations.CaptureStateTransitions : Prop :=
  ∀ (i : Instr) (s t : State), exec i s = .next t → t.capState ≠ s.capState →
    (t.capState = .idle →
      i = .rst ∨ commandOp i = some 1#4
      ∨ (EndsTransmission i s ∧ t.txBusy = false ∧ s.capState = .receiving))
    ∧ (t.capState = .receiving → i = .sample true ∧ s.capState = .idle)
    ∧ (t.capState = .frameComplete →
      i = .sample false ∧ s.capState = .receiving ∧ s.capLevel = false ∧ s.cfg.gapTicks ≤ s.capCnt.toNat + 1)
    ∧ (t.capState = .overflow →
      i = .sample (!s.capLevel) ∧ s.capState = .receiving ∧ t.buf.length = s.cfg.rawbuf)

/-- R37: `ovf` is set on entering Overflow and by nothing else, and cleared only by RESUME and reset. -/
def Obligations.OverflowFlagHasItsOnlyWriters : Prop :=
  ∀ (i : Instr) (s t : State), exec i s = .next t →
    (s.ovf = false → t.ovf = true → t.capState = .overflow ∧ s.capState = .receiving ∧ ∃ mark, i = .sample mark)
    ∧ (s.capState ≠ .overflow → t.capState = .overflow → t.ovf = true)
    ∧ (s.ovf = true → t.ovf = false → i = .rst ∨ commandOp i = some 1#4)

/-! ## Flags of commands and results -/

/-- R42: `cmd_err` is cleared only by NOP and reset, and set only by a reserved command and by a SEND while busy. -/
def Obligations.CommandErrorIsSticky : Prop :=
  ∀ (i : Instr) (s t : State), exec i s = .next t →
    (s.cmdErr = true → t.cmdErr = false → i = .rst ∨ commandOp i = some 0#4)
    ∧ (s.cmdErr = false → t.cmdErr = true →
      (∃ op, commandOp i = some op ∧ (4 ≤ op.toNat ∨ i.WellFormed = false)) ∨ (commandOp i = some 3#4 ∧ s.txBusy = true))

/-- R38: `res_valid` is set only by a DECODE of a held snapshot, and cleared only by a DECODE without one, RESUME and
reset. -/
def Obligations.ResultValidHasItsOnlyWriters : Prop :=
  ∀ (i : Instr) (s t : State), exec i s = .next t →
    (s.resValid = false → t.resValid = true → commandOp i = some 2#4 ∧ s.ready = true)
    ∧ (s.resValid = true → t.resValid = false →
      i = .rst ∨ commandOp i = some 1#4 ∨ (commandOp i = some 2#4 ∧ s.ready = false))

/-! ## Reset -/

/-- R330: after an RST step every element of the block holds its reset value, `tick_phase` excepted; the agents' state and
the build parameters stand. -/
def Obligations.ResetRestoresEveryElement : Prop :=
  ∀ s : State, ∃ phase : Nat,
    exec .rst s = .next { State.resetWith s.cfg with
      tickPhase := phase, freeCount := s.freeCount + 1, reads := s.reads, busErrors := s.busErrors, host := s.host
      script := s.script, irIn := s.irIn, irTail := s.irTail, agenda := s.agenda, hostNext := s.hostNext }

/-- R330, R30: the reset values, and what every register reads right after reset, for every build and every RAW index. -/
def Obligations.ResetStateReadsAsTheSpecSays : Prop :=
  ∀ (cfg : Params) (k : BitVec 9),
    (State.resetWith cfg).capState = .idle ∧ (State.resetWith cfg).capLevel = false
    ∧ (State.resetWith cfg).capCnt = 0#16 ∧ (State.resetWith cfg).buf = [] ∧ (State.resetWith cfg).txFrame = 0#32
    ∧ (State.resetWith cfg).txIdx = 0#7 ∧ (State.resetWith cfg).irTx = false
    ∧ ∃ caps : Word, caps.toNat = cfg.usecPerTick % 65536 * 65536 + cfg.rawbuf % 65536
      ∧ execAll
          [.rdCaps, .rdStatus, .rdRawlen, .rdTxCode, .rdResProto, .rdResValue, .rdResAddr, .rdResInfo, .rdRaw k]
          (State.resetWith cfg)
        = .next { State.resetWith cfg with reads := caps :: List.replicate 8 0#32 }

/-! ## Encodings -/

/-- R100 to R103, R112: words written out from the spec decode to the instructions they stand for. That a write's data word
stands above the descriptor's 16 bits, and that a write given without one reads as data 0, is the model's numbering
(log 13). -/
def Obligations.WrittenOutWordsDecode : Prop :=
  decodeTableWord 8 0x0 = some .nop ∧ decodeTableWord 8 0x3 = some .send
  ∧ decodeTableWord 32 0x00000012 = some .decode
  ∧ decodeTableWord 16 0x4008 = some .rdStatus ∧ decodeTableWord 16 0x5010 = some (.wrTxCode 0#32)
  ∧ decodeTableWord 48 0x000010EF5010 = some (.wrTxCode 0x10EF#32)
  ∧ decodeTableWord 16 0x4908 = some (.rdRaw 66#9) ∧ decodeTableWord 16 0x4100 = some (.rdRsvd100 0x100#12)
  ∧ decodeTableWord 16 0x400A = some (.busErrMisalign2 false 0x00A#12)
  ∧ decodeTableWord 16 0x0008 = some (.busErrSize0 false 0x008#12)

/-- Decoding an encoded well-formed instruction gives it back, with every operand at every value. -/
def Obligations.DecodeOfEncodeIsTheInstruction : Prop :=
  ∀ (i : Instr) (c : Code), i.WellFormed = true → encode i = some c → decode c = i

/-- Every descriptor and every command word has exactly one meaning, a well-formed instruction whose encoding gives the
descriptor (and a write's data), or the OP, back. -/
def Obligations.EncodeOfDecodeIsTheWord : Prop :=
  (∀ (desc : Descriptor) (data : Word),
    (decodeBus desc data).WellFormed = true
    ∧ ∃ data', encode (decodeBus desc data) = some (.bus desc data')
      ∧ (desc.toNat / 4096 = 5 → desc.toNat % 4 = 0 → data' = data))
  ∧ ∀ word : Word,
    (decodeCmd word).WellFormed = true ∧ encode (decodeCmd word) = some (.cmd (word &&& 0xF#32))

/-- R83, R111: the bytes of a code decode to its instruction, and what follows them is left over. -/
def Obligations.BytesOfACodeDecode : Prop :=
  ∀ (c : Code) (rest : List Byte), decodeBytes c.format (c.bytes ++ rest) = .ok (decode c, rest)

/-! ## Decoder -/

/-- R153: the tolerance bands in ticks at the reference parameters. -/
def Obligations.ReferenceBands : Prop :=
  ∀ d : Ticks,
    (inBand Params.reference d 16 = true ↔ 135 ≤ d.toNat ∧ d.toNat ≤ 225)
    ∧ (inBand Params.reference d 8 = true ↔ 68 ≤ d.toNat ∧ d.toNat ≤ 112)
    ∧ (inBand Params.reference d 1 = true ↔ 9 ≤ d.toNat ∧ d.toNat ≤ 14)
    ∧ (inBand Params.reference d 3 = true ↔ 26 ≤ d.toNat ∧ d.toNat ≤ 42)

/-- R154, R155, R21: with TOL_PCT at most 33 a space is classified by its band alone, so that the bands are disjoint and a
space at the midpoint is neither bit. -/
def Obligations.SpacesAreClassifiedByTheirBand : Prop :=
  ∀ (p : Params) (d : Ticks), p.tolPct ≤ 33 →
    (∀ b : Bool, classifySpace p d = some b ↔ inBand p d (if b then 3 else 1) = true)
    ∧ (2 * tickNs p d = 4 * Config.necUnitNs → classifySpace p d = none)

/-- R161, R162, R163: the trains the NEC matcher accepts, and the value it gives, bit by bit. -/
def Obligations.NecMatcherAcceptsExactlyNecTrains : Prop :=
  ∀ (p : Params) (train : List Ticks) (m : Match),
    matchNec p train = some m ↔
      67 ≤ train.length ∧ inBand p (train.getD 0 0#16) 16 = true ∧ inBand p (train.getD 1 0#16) 8 = true
      ∧ (∀ i, i < 32 → inBand p (train.getD (2 + 2 * i) 0#16) 1 = true
          ∧ classifySpace p (train.getD (3 + 2 * i) 0#16) = some (m.value.getLsbD i))
      ∧ inBand p (train.getD 66 0#16) 1 = true ∧ m.address = none ∧ m.bitCount = 32#8

/-- R169, R170: the NEC matcher reads the first 67 entries and nothing beyond. -/
def Obligations.NecMatcherReadsOnlyTheFrame : Prop :=
  ∀ (p : Params) (train extra : List Ticks),
    (67 ≤ train.length → matchNec p (train ++ extra) = matchNec p train)
    ∧ (train.length < 67 → matchNec p train = none)

/-- R158, R159, R171: an overflowed train is reported before anything else, then a train below the minimum length; then NEC
is tried, then the others in MATCHER_ORDER; the first matcher that accepts gives the result, and if none does the signal
is Unknown. -/
def Obligations.DecodeTakesTheFirstAcceptingMatcher : Prop :=
  ∀ (p : Params) (train : List Ticks),
    decodeTrain p train true
      = { protocol := .unknown, address := none, value := 0#32, bitCount := 0#8, overflow := true }
    ∧ (train.length < p.minFrameLen →
      decodeTrain p train false
        = { protocol := .unknown, address := none, value := 0#32, bitCount := 0#8, overflow := false })
    ∧ (∀ m, p.minFrameLen ≤ train.length → matchNec p train = some m →
      decodeTrain p train false
        = { protocol := .nec, address := m.address, value := m.value, bitCount := m.bitCount, overflow := false })
    ∧ (p.minFrameLen ≤ train.length → matchNec p train = none →
      decodeTrain p train false
        = (p.matcherOrder.findSome? fun q => (matchOther p q train).map fun m =>
            { protocol := .other q, address := m.address, value := m.value, bitCount := m.bitCount
              overflow := false : DecodedSignal }).getD
          { protocol := .unknown, address := none, value := 0#32, bitCount := 0#8, overflow := false })

/-- R8, R160 (a) to (h), for every matcher and every format of its protocol (log 2): held to the contract, a matcher gives
exactly those of its own answers that obey it, so one that obeys it is unchanged; each has a header within the band, entries
read within the contract (`ReadsAs`), each bit of value and address at its places in the protocol's bit order, and an
address only where the protocol carries one. In the reference configuration every matcher rejects (R7). -/
def Obligations.OtherMatchersKeepTheirContract : Prop :=
  (∀ (p : Params) (f : MatcherFormat) (matcher : List Ticks → Option Match) (train : List Ticks),
    (∀ m, matchContracted p f matcher train = some m ↔ matcher train = some m ∧ obeysContract p f train m = true)
    ∧ ((∀ m, matcher train = some m → obeysContract p f train m = true) →
      matchContracted p f matcher train = matcher train)
    ∧ ∀ m, obeysContract p f train m = true →
      2 ≤ train.length
      ∧ inBandNs p (train.getD 0 0#16) f.headerMarkNs = true ∧ inBandNs p (train.getD 1 0#16) f.headerSpaceNs = true
      ∧ (m.address ≠ none → f.carriesAddress = true)
      ∧ ∃ read, ReadsAs p f train.length [] (train.drop 2) read
        ∧ (∀ j, j < 32 → (m.value.getLsbD j = true ↔
            ∃ i, (readBits read)[i]? = some true ∧ j ∈ f.valuePlaces (readBits read).length i))
        ∧ ∀ a, m.address = some a → ∀ j, j < 32 → (a.getLsbD j = true ↔
            ∃ i, (readBits read)[i]? = some true ∧ j ∈ f.addressPlaces (readBits read).length i))
  ∧ ∀ (p : Params) (q : OtherProtocol) (train : List Ticks),
    (∀ k, p.matchers = .family k →
      matchOther p q train = matchContracted p (Config.otherFormat k q) (Config.otherMatcher k q) train)
    ∧ (p.matchers = .rejectAll → matchOther p q train = none)

/-! ## Round trip -/

/-- The decoder's half of R203: counts within one tick of the pulses of a frame decode to that frame. -/
def Obligations.QuantisedFrameDecodesToItself : Prop :=
  ∀ (p : Params) (frame : Word) (train : List Ticks), p.Valid → RoundTripTicks p →
    List.Forall₂ (fun (d : Ticks) (q : Pulse) => Quantised p d.toNat q.units) train (necPulses frame) →
    decodeTrain p train false
      = { protocol := .nec, address := none, value := frame, bitCount := 32#8, overflow := false }

/-- R203: the pulses of a transmitted code, sampled within the quantisation bound by a block in Idle and followed by a gap,
are captured whole, and DECODE gives the frame back. -/
def Obligations.CaptureAndDecodeOfATransmittedFrame : Prop :=
  ∀ (s : State) (code : Word) (counts : List Nat) (gap : Nat),
    s.cfg.Valid → RoundTripTicks s.cfg → s.CaptureOk → s.capState = .idle → s.txBusy = false →
    List.Forall₂ (fun (d : Nat) (q : Pulse) => Quantised s.cfg d q.units) counts (necPulses (necFrame code)) →
    s.cfg.gapTicks ≤ gap →
    ∃ t u, execAll (sampleSteps (driveTrain true counts ++ drive false gap)) s = .next t
      ∧ t.capState = .frameComplete ∧ t.buf.map BitVec.toNat = counts ∧ t.buf.length = 67
      ∧ exec .decode t = .next u
      ∧ u.resProto = 1#4 ∧ u.resValue = (0x20DF0000#32 ||| code) ∧ u.resAddr = 0#32 ∧ u.resAddrPresent = false
      ∧ u.resBits = 32#8 ∧ u.resOvf = false ∧ u.resValid = true

/-! ## The machine's step -/

/-- A step runs the decoded instruction: on the host's turn the first access of its program, ended as R300 says; on a tick
a SAMPLE of the level the environment drives, pending, held, free or space, and nothing during a transmission (R114, R220); on the
transmitter's turn its pulse or the end (log 14); on `rst` a reset (R86, R306); an unseen level is lost during a transmission (R337). -/
def Obligations.StepRunsTheDecodedInstruction : Prop :=
  ∀ (s : State) (later : List Turn),
    (∀ c rest, s.agenda = .host :: later → s.script = HostOp.ofCode c :: rest →
      step s = endAccess { s with agenda := later, script := rest }
        (exec (decode c) { s with agenda := later, script := rest }))
    ∧ (∀ mark rest, s.agenda = .tick :: later → s.txBusy = false → s.irIn = mark :: rest →
      step s = exec (.sample mark) { s with agenda := later, irIn := rest })
    ∧ (s.agenda = .tick :: later → s.txBusy = false → s.irIn = [] → s.irTail = .over →
      step s = exec (.sample false) { s with agenda := later })
    ∧ (∀ mark, s.agenda = .tick :: later → s.txBusy = false → s.irIn = [] → s.irTail = .hold mark →
      step s = exec (.sample mark) { s with agenda := later })
    ∧ (∀ source n, s.agenda = .tick :: later → s.txBusy = false → s.irIn = [] → s.irTail = .free source n →
      step s = exec (.sample (Config.irSource source n)) { s with agenda := later, irTail := .free source (n + 1) })
    ∧ (s.agenda = .tick :: later → s.txBusy = true → step s = .next { s with agenda := later })
    ∧ (∀ mark rest, s.agenda = .unseen :: later → s.irIn = mark :: rest →
      step s = .next { s with agenda := later, irIn := if s.txBusy = true then rest else s.irIn })
    ∧ (s.agenda = .tx :: later → s.txIdx ≠ 67#7 → step s = exec .txPulse { s with agenda := later })
    ∧ (s.agenda = .tx :: later → s.txIdx = 67#7 → step s = exec .txEnd { s with agenda := later })
    ∧ (s.agenda = .rst :: later → step s = exec .rst { s with agenda := later })

/-- The next step of a state in which a table word was placed performs the instruction the decoder reads from it, on the
state as it was. -/
def Obligations.PlacedWordIsPerformedNext : Prop :=
  ∀ (s : State) (nbits w : Nat) (i : Instr), decodeTableWord nbits w = some i →
    step (s.withFetchWord nbits w) = endAccess s (exec i s)

/-- R300, R302: a refused access leaves the block, and everything but the record of its error response, as it was, and the
machine goes on. -/
def Obligations.BusErrorChangesNoBlockState : Prop :=
  ∀ (s : State) (later : List Turn) (desc : Descriptor) (data : Word) (rest : List HostOp),
    s.agenda = .host :: later → s.script = .access desc data :: rest →
    desc.toNat / 8192 ≠ 2 ∨ desc.toNat % 4 ≠ 0 →
    step s = .next { s with
      agenda := later, script := rest, busErrors := s.busErrors ++ [s.cfg.ircBase + desc.toNat % 4096] }

/-- R11, R80, R82: a bus access of four bytes inside the window is the word access at its offset, one of one or two bytes is
refused, and outside the window the access faults (log 9). -/
def Obligations.BusAccessesReachTheWindow : Prop :=
  ∀ (s : State) (later : List Turn) (write : Bool) (addr size : Nat) (data : Word) (rest : List HostOp),
    s.agenda = .host :: later → s.script = .bus write addr size data :: rest →
    (addr < s.cfg.ircBase ∨ s.cfg.ircBase + 4096 ≤ addr → step s = .fault (.outsideWindow addr))
    ∧ (∀ off : Offset, addr = s.cfg.ircBase + off.toNat → size = 4 →
      step s = endAccess { s with agenda := later, script := rest }
        (exec (decodeBus (Descriptor.wordAccess write off) data) { s with agenda := later, script := rest }))
    ∧ (∀ off : Offset, addr = s.cfg.ircBase + off.toNat → size = 1 ∨ size = 2 →
      step s = .next { s with agenda := later, script := rest, busErrors := s.busErrors ++ [addr] })

/-- R113: each turn of `waittx` and `waitready` reads STATUS once, and the program goes on when TX_BUSY is 0, READY 1. -/
def Obligations.PollingReadsStatusOnceATurn : Prop :=
  ∀ (s : State) (later : List Turn) (rest : List HostOp), s.agenda = .host :: later →
    (s.script = HostOp.waittx :: rest → ∃ w : Word,
      exec .rdStatus s = .next { s with reads := s.reads ++ [w] }
      ∧ step s = .next { s with
          agenda := later, reads := s.reads ++ [w]
          script := if s.txBusy = true then HostOp.waittx :: rest else rest })
    ∧ (s.script = HostOp.waitready :: rest → ∃ w : Word,
      exec .rdStatus s = .next { s with reads := s.reads ++ [w] }
      ∧ step s = .next { s with
          agenda := later, reads := s.reads ++ [w]
          script := if s.capState = .frameComplete ∨ s.capState = .overflow then rest else HostOp.waitready :: rest })

/-! ## Invariants -/

/-- The invariant holds right after reset, for every admissible build, and the reference build is one. -/
def Obligations.ResetStateMeetsTheInvariant : Prop :=
  (∀ cfg : Params, cfg.Valid → (State.resetWith cfg).Inv) ∧ State.reset = State.resetWith Params.reference
  ∧ Params.reference.Valid

/-- R37, R38, R39, R41, R200: every step of the machine keeps the invariant. -/
def Obligations.StepKeepsTheInvariant : Prop :=
  ∀ s t : State, s.Inv → step s = .next t → t.Inv

/-- R267: while the surrounding software is the only host, a SEND is never issued during a transmission, and no step sets
`cmd_err`. -/
def Obligations.SoftwareNeverSendsWhileBusy : Prop :=
  ∀ s t : State, s.SendDiscipline → step s = .next t →
    t.SendDiscipline ∧ (t.cmdErr = true → s.cmdErr = true)

/-! ## The surrounding software -/

/-- R262, R263: the uppercase spelling of a value parses back to the value in base 16; with the prefix before it, unless the
value has one digit only, which the length check refuses. -/
def Obligations.ParserInvertsTheHexSpelling : Prop :=
  ∀ v : Word,
    parseNumber (hexText v) 16 = some v
    ∧ parseNumber (hexPrefix ++ hexText v) 16 = if 16 ≤ v.toNat then some v else none

/-- R256, R258, R259, R261: mode switches are idempotent and confirmed once; in Receive mode any other line is ignored. -/
def Obligations.ModeSwitchesAreIdempotent : Prop :=
  ∀ (h : HostSoftware) (line : List Byte),
    (h.mode = .receive → dispatchLine modeTxLine h
      = ({ h with mode := .transmit, serialOut := h.serialOut ++ [.confirmTransmit] }, none))
    ∧ (h.mode = .transmit → dispatchLine modeTxLine h = (h, none))
    ∧ (h.mode = .transmit → dispatchLine modeRxLine h
      = ({ h with mode := .receive, serialOut := h.serialOut ++ [.confirmReceive] }, none))
    ∧ (h.mode = .receive → dispatchLine modeRxLine h = (h, none))
    ∧ (h.mode = .receive → line ≠ helpLine → line ≠ modeRxLine → line ≠ modeTxLine →
      dispatchLine line h = (h, none))
end

