-- ==== Sys2Proof/Laws/Decode.lean ====
section
/-! SUPPORT. The fields of a descriptor and of an offset as arithmetic on its number, and the decoder on a legal access. -/

namespace Sys2Proof

/-! ## Descriptors -/

theorem Descriptor.toNat_mk (size : BitVec 2) (write : Bool) (off : Offset) :
    (Descriptor.mk size write off).toNat = size.toNat * 8192 + write.toNat * 4096 + off.toNat := by
  have happ : (Descriptor.mk size write off).toNat
      = ((size.toNat <<< 1 ||| write.toNat) <<< 12 ||| off.toNat) := by
    show ((size ++ BitVec.ofBool write) ++ off).toNat = _
    rw [BitVec.toNat_append, BitVec.toNat_append, BitVec.toNat_ofBool]
  have hw : write.toNat < 2 ^ 1 := by cases write <;> decide
  rw [happ, ← Nat.shiftLeft_add_eq_or_of_lt hw, ← Nat.shiftLeft_add_eq_or_of_lt off.isLt,
    Nat.shiftLeft_eq, Nat.shiftLeft_eq]
  omega

theorem Descriptor.toNat_size (d : Descriptor) : (Descriptor.size d).toNat = d.toNat / 8192 := by
  have := d.isLt
  simp only [Descriptor.size, BitVec.extractLsb'_toNat, Nat.shiftRight_eq_div_pow]
  omega

theorem Descriptor.toNat_offset (d : Descriptor) : (Descriptor.offset d).toNat = d.toNat % 4096 := by
  simp [Descriptor.offset, BitVec.extractLsb'_toNat]

theorem Descriptor.toNat_write (d : Descriptor) : (Descriptor.write d).toNat = d.toNat / 4096 % 2 := by
  rw [Descriptor.write, ← BitVec.testBit_toNat, Nat.toNat_testBit]

@[simp] theorem Descriptor.size_mk (size : BitVec 2) (write : Bool) (off : Offset) :
    Descriptor.size (Descriptor.mk size write off) = size := by
  have := off.isLt
  have : write.toNat < 2 := by cases write <;> decide
  apply BitVec.eq_of_toNat_eq
  rw [Descriptor.toNat_size, Descriptor.toNat_mk]
  omega

@[simp] theorem Descriptor.write_mk (size : BitVec 2) (write : Bool) (off : Offset) :
    Descriptor.write (Descriptor.mk size write off) = write := by
  have := off.isLt
  have : write.toNat < 2 := by cases write <;> decide
  have h := Descriptor.toNat_write (Descriptor.mk size write off)
  rw [Descriptor.toNat_mk] at h
  have h' : (Descriptor.write (Descriptor.mk size write off)).toNat = write.toNat := by omega
  revert h'
  cases write <;> cases Descriptor.write _ <;> simp

@[simp] theorem Descriptor.offset_mk (size : BitVec 2) (write : Bool) (off : Offset) :
    Descriptor.offset (Descriptor.mk size write off) = off := by
  have := off.isLt
  apply BitVec.eq_of_toNat_eq
  rw [Descriptor.toNat_offset, Descriptor.toNat_mk]
  omega

/-- A descriptor is its three fields. -/
theorem Descriptor.mk_fields (d : Descriptor) :
    Descriptor.mk (Descriptor.size d) (Descriptor.write d) (Descriptor.offset d) = d := by
  apply BitVec.eq_of_toNat_eq
  rw [Descriptor.toNat_mk, Descriptor.toNat_size, Descriptor.toNat_write, Descriptor.toNat_offset]
  omega

/-! ## Offsets -/

theorem Offset.toNat_align (off : Offset) : (Offset.align off).toNat = off.toNat % 4 := by
  simp [Offset.align, BitVec.extractLsb'_toNat]

theorem Offset.toNat_rawIndex (off : Offset) : (Offset.rawIndex off).toNat = off.toNat / 4 % 512 := by
  simp [Offset.rawIndex, BitVec.extractLsb'_toNat, Nat.shiftRight_eq_div_pow]

theorem Offset.toNat_ofRaw (k : BitVec 9) : (Offset.ofRaw k).toNat = 2048 + 4 * k.toNat := by
  have happ : (Offset.ofRaw k).toNat = ((1 <<< 9 ||| k.toNat) <<< 2 ||| 0) := by
    show ((1#1 ++ k) ++ 0#2).toNat = _
    rw [BitVec.toNat_append, BitVec.toNat_append]
    rfl
  rw [happ, ← Nat.shiftLeft_add_eq_or_of_lt k.isLt, Nat.or_zero, Nat.shiftLeft_eq, Nat.shiftLeft_eq]
  omega

theorem Offset.bit11 (off : Offset) : off.getLsbD 11 = decide (2048 ≤ off.toNat) := by
  have := off.isLt
  rw [← BitVec.testBit_toNat]
  by_cases h : 2048 ≤ off.toNat
  · rw [decide_eq_true h, Nat.testBit_eq_decide_div_mod_eq]
    apply decide_eq_true
    omega
  · rw [decide_eq_false h]
    exact Nat.testBit_lt_two_pow (by omega)

@[simp] theorem Offset.rawIndex_ofRaw (k : BitVec 9) : Offset.rawIndex (Offset.ofRaw k) = k := by
  have := k.isLt
  apply BitVec.eq_of_toNat_eq
  rw [Offset.toNat_rawIndex, Offset.toNat_ofRaw]
  omega

/-! ## The decoder -/

theorem Word.toNat_opField (w : Word) : (Word.opField w).toNat = w.toNat % 16 := by
  simp [Word.opField]

/-- A word access at an aligned offset is decoded by the register map alone. -/
theorem decodeBus_wordAccess (write : Bool) (off : Offset) (data : Word) (h : off.toNat % 4 = 0) :
    decodeBus (Descriptor.wordAccess write off) data = if write then decodeWrite off data else decodeRead off := by
  have ha : Offset.align off = 0#2 := by
    apply BitVec.eq_of_toNat_eq
    rw [Offset.toNat_align, h]
    rfl
  simp [decodeBus, Descriptor.wordAccess, ha]

end Sys2Proof
end

