-- ==== Sys2Proof/Laws/Decoder.lean ====
section
/-! SUPPORT. The decoder's tests as inequalities, and what its matchers and its decode function can answer. -/

namespace Sys2Proof.Machine

theorem inBandNs_iff (p : Params) (d : Ticks) (nominalNs : Nat) :
    inBandNs p d nominalNs = true ↔
      (100 - p.tolPct) * nominalNs ≤ 100 * tickNs p d ∧ 100 * tickNs p d ≤ (100 + p.tolPct) * nominalNs := by
  simp only [inBandNs, Bool.and_eq_true, decide_eq_true_eq]

theorem inBand_iff (p : Params) (d : Ticks) (units : Nat) :
    inBand p d units = true ↔
      (100 - p.tolPct) * (units * 562500) ≤ 100 * tickNs p d
      ∧ 100 * tickNs p d ≤ (100 + p.tolPct) * (units * 562500) :=
  inBandNs_iff p d _

theorem oneCandidate_iff (p : Params) (d : Ticks) : oneCandidate p d = true ↔ 2250000 ≤ 2 * tickNs p d := by
  simp only [oneCandidate, decide_eq_true_eq]
  exact Iff.rfl

/-- OR-ing a bit into its place changes that bit alone. -/
theorem orBit_getLsbD (v : Word) (b : Bool) (i j : Nat) (hj : j < 32) :
    (orBit v b i).getLsbD j = (v.getLsbD j || decide (i = j) && b) := by
  simp only [orBit, BitVec.getLsbD_or, BitVec.getLsbD_shiftLeft, BitVec.getLsbD_setWidth, BitVec.getLsbD_ofBool, hj]
  by_cases h : i = j
  · subst h
    simp [hj]
  · by_cases hlt : j < i
    · simp [h, hlt]
    · have : j - i ≠ 0 := by omega
      simp [h, this]

/-- OR-ing a bit into several places changes those bits alone. -/
theorem foldl_orBit_getLsbD (b : Bool) (places : List Nat) (v : Word) (j : Nat) (hj : j < 32) :
    (places.foldl (orBit · b ·) v).getLsbD j = (v.getLsbD j || decide (j ∈ places) && b) := by
  induction places generalizing v with
  | nil => simp
  | cons i rest ih =>
    rw [List.foldl_cons, ih, orBit_getLsbD _ _ _ _ hj]
    by_cases h : i = j
    · subst h
      cases b <;> simp
    · simp [h, Ne.symm h]

/-- A match that obeys the contract has a header within the band, and holds the bits its train is read as. -/
theorem obeysContract_iff {p : Params} {f : MatcherFormat} {train : List Ticks} {m : Match} :
    obeysContract p f train m = true ↔
      ∃ mark space rest read, train = mark :: space :: rest
        ∧ inBandNs p mark f.headerMarkNs = true ∧ inBandNs p space f.headerSpaceNs = true
        ∧ readSlots p f train.length [] rest = some read ∧ holdsBits f (readBits read) m = true := by
  unfold obeysContract
  constructor
  · intro h
    split at h
    · rename_i mark space rest
      rw [Bool.and_eq_true, Bool.and_eq_true] at h
      obtain ⟨⟨hm, hs⟩, h⟩ := h
      split at h
      · exact ⟨mark, space, rest, _, rfl, hm, hs, ‹_›, h⟩
      · cases h
    · cases h
  · rintro ⟨mark, space, rest, read, rfl, hm, hs, hr, hb⟩
    simp only [hm, hs, hr, hb, Bool.and_self]

/-- A contracted matcher answers what the matcher answers, where that obeys the contract. -/
theorem matchContracted_eq_some {p : Params} {f : MatcherFormat} {matcher : List Ticks → Option Match} {train : List Ticks}
    {m : Match} :
    matchContracted p f matcher train = some m ↔ matcher train = some m ∧ obeysContract p f train m = true :=
  Option.filter_eq_some_iff

/-- A classified pulse lies on the side of the midpoint, and in the band, of its bit. -/
theorem classifyPulse_eq_some {p : Params} {f : MatcherFormat} {d : Ticks} {b : Bool} (h : classifyPulse p f d = some b) :
    (b = false ∧ inBandNs p d f.zeroNs = true
      ∧ if f.zeroNs ≤ f.oneNs then 2 * tickNs p d ≤ f.zeroNs + f.oneNs else f.zeroNs + f.oneNs ≤ 2 * tickNs p d)
    ∨ (b = true ∧ inBandNs p d f.oneNs = true
      ∧ if f.zeroNs ≤ f.oneNs then f.zeroNs + f.oneNs ≤ 2 * tickNs p d else 2 * tickNs p d ≤ f.zeroNs + f.oneNs) := by
  unfold classifyPulse at h
  generalize hl : (decide (f.zeroNs + f.oneNs < 2 * tickNs p d)
    || f.midpointIsLonger && f.zeroNs + f.oneNs == 2 * tickNs p d) = longer at h
  have side : (longer = true → f.zeroNs + f.oneNs ≤ 2 * tickNs p d)
      ∧ (longer = false → 2 * tickNs p d ≤ f.zeroNs + f.oneNs) := by
    subst hl
    constructor
    · simp only [Bool.or_eq_true, Bool.and_eq_true, decide_eq_true_eq, beq_iff_eq]
      omega
    · simp only [Bool.or_eq_false_iff, decide_eq_false_iff_not]
      omega
  by_cases hz : f.zeroNs ≤ f.oneNs <;> cases longer <;> simp [hz] at h side ⊢ <;> obtain ⟨hb, rfl⟩ := h <;>
    simp [hb, side]

/-- The first matcher of the order that accepts decides; if none does the signal is Unknown. -/
theorem firstMatch_cases (p : Params) (train : List Ticks) (order : List Protocol) :
    (∃ before q after m, order = before ++ q :: after ∧ (∀ r ∈ before, matchProtocol p train r = none)
      ∧ matchProtocol p train q = some m ∧ firstMatch p train order = matchedSignal q m)
    ∨ ((∀ r ∈ order, matchProtocol p train r = none) ∧ firstMatch p train order = unknownSignal false) := by
  induction order with
  | nil => exact .inr ⟨by simp, rfl⟩
  | cons q rest ih =>
    cases hq : matchProtocol p train q with
    | some m => exact .inl ⟨[], q, rest, m, rfl, by simp, hq, by simp only [firstMatch, hq]⟩
    | none =>
      have hf : firstMatch p train (q :: rest) = firstMatch p train rest := by simp only [firstMatch, hq]
      obtain ⟨before, r, after, m, rfl, hb, hr, he⟩ | ⟨hn, he⟩ := ih
      · exact .inl ⟨q :: before, r, after, m, rfl, by simpa [hq] using hb, hr, hf.trans he⟩
      · exact .inr ⟨by simpa [hq] using hn, hf.trans he⟩

end Sys2Proof.Machine
end

