-- ==== Sys2Proof/Laws/State.lean ====
section
/-! SUPPORT. What each named update does to each field: one lemma per field, so that no proof unfolds an update. -/

namespace Sys2Proof.Machine

/-! ## respond -/

@[simp] theorem State.respond_cfg (s : State) (w : Word) :
    (s.respond w).cfg = s.cfg := rfl
@[simp] theorem State.respond_capState (s : State) (w : Word) :
    (s.respond w).capState = s.capState := rfl
@[simp] theorem State.respond_capLevel (s : State) (w : Word) :
    (s.respond w).capLevel = s.capLevel := rfl
@[simp] theorem State.respond_capCnt (s : State) (w : Word) :
    (s.respond w).capCnt = s.capCnt := rfl
@[simp] theorem State.respond_buf (s : State) (w : Word) :
    (s.respond w).buf = s.buf := rfl
@[simp] theorem State.respond_ovf (s : State) (w : Word) :
    (s.respond w).ovf = s.ovf := rfl
@[simp] theorem State.respond_resValid (s : State) (w : Word) :
    (s.respond w).resValid = s.resValid := rfl
@[simp] theorem State.respond_resProto (s : State) (w : Word) :
    (s.respond w).resProto = s.resProto := rfl
@[simp] theorem State.respond_resValue (s : State) (w : Word) :
    (s.respond w).resValue = s.resValue := rfl
@[simp] theorem State.respond_resAddr (s : State) (w : Word) :
    (s.respond w).resAddr = s.resAddr := rfl
@[simp] theorem State.respond_resAddrPresent (s : State) (w : Word) :
    (s.respond w).resAddrPresent = s.resAddrPresent := rfl
@[simp] theorem State.respond_resBits (s : State) (w : Word) :
    (s.respond w).resBits = s.resBits := rfl
@[simp] theorem State.respond_resOvf (s : State) (w : Word) :
    (s.respond w).resOvf = s.resOvf := rfl
@[simp] theorem State.respond_txCode (s : State) (w : Word) :
    (s.respond w).txCode = s.txCode := rfl
@[simp] theorem State.respond_txBusy (s : State) (w : Word) :
    (s.respond w).txBusy = s.txBusy := rfl
@[simp] theorem State.respond_txFrame (s : State) (w : Word) :
    (s.respond w).txFrame = s.txFrame := rfl
@[simp] theorem State.respond_txIdx (s : State) (w : Word) :
    (s.respond w).txIdx = s.txIdx := rfl
@[simp] theorem State.respond_irTx (s : State) (w : Word) :
    (s.respond w).irTx = s.irTx := rfl
@[simp] theorem State.respond_cmdErr (s : State) (w : Word) :
    (s.respond w).cmdErr = s.cmdErr := rfl
@[simp] theorem State.respond_tickPhase (s : State) (w : Word) :
    (s.respond w).tickPhase = s.tickPhase := rfl
@[simp] theorem State.respond_wireOut (s : State) (w : Word) :
    (s.respond w).wireOut = s.wireOut := rfl
@[simp] theorem State.respond_reads (s : State) (w : Word) :
    (s.respond w).reads = s.reads ++ [w] := rfl
@[simp] theorem State.respond_busErrors (s : State) (w : Word) :
    (s.respond w).busErrors = s.busErrors := rfl
@[simp] theorem State.respond_host (s : State) (w : Word) :
    (s.respond w).host = s.host := rfl
@[simp] theorem State.respond_script (s : State) (w : Word) :
    (s.respond w).script = s.script := rfl
@[simp] theorem State.respond_irIn (s : State) (w : Word) :
    (s.respond w).irIn = s.irIn := rfl
@[simp] theorem State.respond_irTail (s : State) (w : Word) :
    (s.respond w).irTail = s.irTail := rfl
@[simp] theorem State.respond_agenda (s : State) (w : Word) :
    (s.respond w).agenda = s.agenda := rfl
@[simp] theorem State.respond_hostNext (s : State) (w : Word) :
    (s.respond w).hostNext = s.hostNext := rfl
@[simp] theorem State.respond_freeCount (s : State) (w : Word) :
    (s.respond w).freeCount = s.freeCount := rfl

/-! ## recordBusError -/

@[simp] theorem State.recordBusError_cfg (s : State) (addr : Nat) :
    (s.recordBusError addr).cfg = s.cfg := rfl
@[simp] theorem State.recordBusError_capState (s : State) (addr : Nat) :
    (s.recordBusError addr).capState = s.capState := rfl
@[simp] theorem State.recordBusError_capLevel (s : State) (addr : Nat) :
    (s.recordBusError addr).capLevel = s.capLevel := rfl
@[simp] theorem State.recordBusError_capCnt (s : State) (addr : Nat) :
    (s.recordBusError addr).capCnt = s.capCnt := rfl
@[simp] theorem State.recordBusError_buf (s : State) (addr : Nat) :
    (s.recordBusError addr).buf = s.buf := rfl
@[simp] theorem State.recordBusError_ovf (s : State) (addr : Nat) :
    (s.recordBusError addr).ovf = s.ovf := rfl
@[simp] theorem State.recordBusError_resValid (s : State) (addr : Nat) :
    (s.recordBusError addr).resValid = s.resValid := rfl
@[simp] theorem State.recordBusError_resProto (s : State) (addr : Nat) :
    (s.recordBusError addr).resProto = s.resProto := rfl
@[simp] theorem State.recordBusError_resValue (s : State) (addr : Nat) :
    (s.recordBusError addr).resValue = s.resValue := rfl
@[simp] theorem State.recordBusError_resAddr (s : State) (addr : Nat) :
    (s.recordBusError addr).resAddr = s.resAddr := rfl
@[simp] theorem State.recordBusError_resAddrPresent (s : State) (addr : Nat) :
    (s.recordBusError addr).resAddrPresent = s.resAddrPresent := rfl
@[simp] theorem State.recordBusError_resBits (s : State) (addr : Nat) :
    (s.recordBusError addr).resBits = s.resBits := rfl
@[simp] theorem State.recordBusError_resOvf (s : State) (addr : Nat) :
    (s.recordBusError addr).resOvf = s.resOvf := rfl
@[simp] theorem State.recordBusError_txCode (s : State) (addr : Nat) :
    (s.recordBusError addr).txCode = s.txCode := rfl
@[simp] theorem State.recordBusError_txBusy (s : State) (addr : Nat) :
    (s.recordBusError addr).txBusy = s.txBusy := rfl
@[simp] theorem State.recordBusError_txFrame (s : State) (addr : Nat) :
    (s.recordBusError addr).txFrame = s.txFrame := rfl
@[simp] theorem State.recordBusError_txIdx (s : State) (addr : Nat) :
    (s.recordBusError addr).txIdx = s.txIdx := rfl
@[simp] theorem State.recordBusError_irTx (s : State) (addr : Nat) :
    (s.recordBusError addr).irTx = s.irTx := rfl
@[simp] theorem State.recordBusError_cmdErr (s : State) (addr : Nat) :
    (s.recordBusError addr).cmdErr = s.cmdErr := rfl
@[simp] theorem State.recordBusError_tickPhase (s : State) (addr : Nat) :
    (s.recordBusError addr).tickPhase = s.tickPhase := rfl
@[simp] theorem State.recordBusError_wireOut (s : State) (addr : Nat) :
    (s.recordBusError addr).wireOut = s.wireOut := rfl
@[simp] theorem State.recordBusError_reads (s : State) (addr : Nat) :
    (s.recordBusError addr).reads = s.reads := rfl
@[simp] theorem State.recordBusError_busErrors (s : State) (addr : Nat) :
    (s.recordBusError addr).busErrors = s.busErrors ++ [addr] := rfl
@[simp] theorem State.recordBusError_host (s : State) (addr : Nat) :
    (s.recordBusError addr).host = s.host := rfl
@[simp] theorem State.recordBusError_script (s : State) (addr : Nat) :
    (s.recordBusError addr).script = s.script := rfl
@[simp] theorem State.recordBusError_irIn (s : State) (addr : Nat) :
    (s.recordBusError addr).irIn = s.irIn := rfl
@[simp] theorem State.recordBusError_irTail (s : State) (addr : Nat) :
    (s.recordBusError addr).irTail = s.irTail := rfl
@[simp] theorem State.recordBusError_agenda (s : State) (addr : Nat) :
    (s.recordBusError addr).agenda = s.agenda := rfl
@[simp] theorem State.recordBusError_hostNext (s : State) (addr : Nat) :
    (s.recordBusError addr).hostNext = s.hostNext := rfl
@[simp] theorem State.recordBusError_freeCount (s : State) (addr : Nat) :
    (s.recordBusError addr).freeCount = s.freeCount := rfl

/-! ## flagCommand -/

@[simp] theorem State.flagCommand_cfg (s : State) :
    (s.flagCommand).cfg = s.cfg := rfl
@[simp] theorem State.flagCommand_capState (s : State) :
    (s.flagCommand).capState = s.capState := rfl
@[simp] theorem State.flagCommand_capLevel (s : State) :
    (s.flagCommand).capLevel = s.capLevel := rfl
@[simp] theorem State.flagCommand_capCnt (s : State) :
    (s.flagCommand).capCnt = s.capCnt := rfl
@[simp] theorem State.flagCommand_buf (s : State) :
    (s.flagCommand).buf = s.buf := rfl
@[simp] theorem State.flagCommand_ovf (s : State) :
    (s.flagCommand).ovf = s.ovf := rfl
@[simp] theorem State.flagCommand_resValid (s : State) :
    (s.flagCommand).resValid = s.resValid := rfl
@[simp] theorem State.flagCommand_resProto (s : State) :
    (s.flagCommand).resProto = s.resProto := rfl
@[simp] theorem State.flagCommand_resValue (s : State) :
    (s.flagCommand).resValue = s.resValue := rfl
@[simp] theorem State.flagCommand_resAddr (s : State) :
    (s.flagCommand).resAddr = s.resAddr := rfl
@[simp] theorem State.flagCommand_resAddrPresent (s : State) :
    (s.flagCommand).resAddrPresent = s.resAddrPresent := rfl
@[simp] theorem State.flagCommand_resBits (s : State) :
    (s.flagCommand).resBits = s.resBits := rfl
@[simp] theorem State.flagCommand_resOvf (s : State) :
    (s.flagCommand).resOvf = s.resOvf := rfl
@[simp] theorem State.flagCommand_txCode (s : State) :
    (s.flagCommand).txCode = s.txCode := rfl
@[simp] theorem State.flagCommand_txBusy (s : State) :
    (s.flagCommand).txBusy = s.txBusy := rfl
@[simp] theorem State.flagCommand_txFrame (s : State) :
    (s.flagCommand).txFrame = s.txFrame := rfl
@[simp] theorem State.flagCommand_txIdx (s : State) :
    (s.flagCommand).txIdx = s.txIdx := rfl
@[simp] theorem State.flagCommand_irTx (s : State) :
    (s.flagCommand).irTx = s.irTx := rfl
@[simp] theorem State.flagCommand_cmdErr (s : State) :
    (s.flagCommand).cmdErr = true := rfl
@[simp] theorem State.flagCommand_tickPhase (s : State) :
    (s.flagCommand).tickPhase = s.tickPhase := rfl
@[simp] theorem State.flagCommand_wireOut (s : State) :
    (s.flagCommand).wireOut = s.wireOut := rfl
@[simp] theorem State.flagCommand_reads (s : State) :
    (s.flagCommand).reads = s.reads := rfl
@[simp] theorem State.flagCommand_busErrors (s : State) :
    (s.flagCommand).busErrors = s.busErrors := rfl
@[simp] theorem State.flagCommand_host (s : State) :
    (s.flagCommand).host = s.host := rfl
@[simp] theorem State.flagCommand_script (s : State) :
    (s.flagCommand).script = s.script := rfl
@[simp] theorem State.flagCommand_irIn (s : State) :
    (s.flagCommand).irIn = s.irIn := rfl
@[simp] theorem State.flagCommand_irTail (s : State) :
    (s.flagCommand).irTail = s.irTail := rfl
@[simp] theorem State.flagCommand_agenda (s : State) :
    (s.flagCommand).agenda = s.agenda := rfl
@[simp] theorem State.flagCommand_hostNext (s : State) :
    (s.flagCommand).hostNext = s.hostNext := rfl
@[simp] theorem State.flagCommand_freeCount (s : State) :
    (s.flagCommand).freeCount = s.freeCount := rfl

/-! ## clearCapture -/

@[simp] theorem State.clearCapture_cfg (s : State) :
    (s.clearCapture).cfg = s.cfg := rfl
@[simp] theorem State.clearCapture_capState (s : State) :
    (s.clearCapture).capState = .idle := rfl
@[simp] theorem State.clearCapture_capLevel (s : State) :
    (s.clearCapture).capLevel = false := rfl
@[simp] theorem State.clearCapture_capCnt (s : State) :
    (s.clearCapture).capCnt = 0#16 := rfl
@[simp] theorem State.clearCapture_buf (s : State) :
    (s.clearCapture).buf = [] := rfl
@[simp] theorem State.clearCapture_ovf (s : State) :
    (s.clearCapture).ovf = s.ovf := rfl
@[simp] theorem State.clearCapture_resValid (s : State) :
    (s.clearCapture).resValid = s.resValid := rfl
@[simp] theorem State.clearCapture_resProto (s : State) :
    (s.clearCapture).resProto = s.resProto := rfl
@[simp] theorem State.clearCapture_resValue (s : State) :
    (s.clearCapture).resValue = s.resValue := rfl
@[simp] theorem State.clearCapture_resAddr (s : State) :
    (s.clearCapture).resAddr = s.resAddr := rfl
@[simp] theorem State.clearCapture_resAddrPresent (s : State) :
    (s.clearCapture).resAddrPresent = s.resAddrPresent := rfl
@[simp] theorem State.clearCapture_resBits (s : State) :
    (s.clearCapture).resBits = s.resBits := rfl
@[simp] theorem State.clearCapture_resOvf (s : State) :
    (s.clearCapture).resOvf = s.resOvf := rfl
@[simp] theorem State.clearCapture_txCode (s : State) :
    (s.clearCapture).txCode = s.txCode := rfl
@[simp] theorem State.clearCapture_txBusy (s : State) :
    (s.clearCapture).txBusy = s.txBusy := rfl
@[simp] theorem State.clearCapture_txFrame (s : State) :
    (s.clearCapture).txFrame = s.txFrame := rfl
@[simp] theorem State.clearCapture_txIdx (s : State) :
    (s.clearCapture).txIdx = s.txIdx := rfl
@[simp] theorem State.clearCapture_irTx (s : State) :
    (s.clearCapture).irTx = s.irTx := rfl
@[simp] theorem State.clearCapture_cmdErr (s : State) :
    (s.clearCapture).cmdErr = s.cmdErr := rfl
@[simp] theorem State.clearCapture_tickPhase (s : State) :
    (s.clearCapture).tickPhase = s.tickPhase := rfl
@[simp] theorem State.clearCapture_wireOut (s : State) :
    (s.clearCapture).wireOut = s.wireOut := rfl
@[simp] theorem State.clearCapture_reads (s : State) :
    (s.clearCapture).reads = s.reads := rfl
@[simp] theorem State.clearCapture_busErrors (s : State) :
    (s.clearCapture).busErrors = s.busErrors := rfl
@[simp] theorem State.clearCapture_host (s : State) :
    (s.clearCapture).host = s.host := rfl
@[simp] theorem State.clearCapture_script (s : State) :
    (s.clearCapture).script = s.script := rfl
@[simp] theorem State.clearCapture_irIn (s : State) :
    (s.clearCapture).irIn = s.irIn := rfl
@[simp] theorem State.clearCapture_irTail (s : State) :
    (s.clearCapture).irTail = s.irTail := rfl
@[simp] theorem State.clearCapture_agenda (s : State) :
    (s.clearCapture).agenda = s.agenda := rfl
@[simp] theorem State.clearCapture_hostNext (s : State) :
    (s.clearCapture).hostNext = s.hostNext := rfl
@[simp] theorem State.clearCapture_freeCount (s : State) :
    (s.clearCapture).freeCount = s.freeCount := rfl

/-! ## writeResult -/

@[simp] theorem State.writeResult_cfg (s : State) (r : DecodedSignal) :
    (s.writeResult r).cfg = s.cfg := rfl
@[simp] theorem State.writeResult_capState (s : State) (r : DecodedSignal) :
    (s.writeResult r).capState = s.capState := rfl
@[simp] theorem State.writeResult_capLevel (s : State) (r : DecodedSignal) :
    (s.writeResult r).capLevel = s.capLevel := rfl
@[simp] theorem State.writeResult_capCnt (s : State) (r : DecodedSignal) :
    (s.writeResult r).capCnt = s.capCnt := rfl
@[simp] theorem State.writeResult_buf (s : State) (r : DecodedSignal) :
    (s.writeResult r).buf = s.buf := rfl
@[simp] theorem State.writeResult_ovf (s : State) (r : DecodedSignal) :
    (s.writeResult r).ovf = s.ovf := rfl
@[simp] theorem State.writeResult_resValid (s : State) (r : DecodedSignal) :
    (s.writeResult r).resValid = s.resValid := rfl
@[simp] theorem State.writeResult_resProto (s : State) (r : DecodedSignal) :
    (s.writeResult r).resProto = protocolCode r.protocol := rfl
@[simp] theorem State.writeResult_resValue (s : State) (r : DecodedSignal) :
    (s.writeResult r).resValue = r.value := rfl
@[simp] theorem State.writeResult_resAddr (s : State) (r : DecodedSignal) :
    (s.writeResult r).resAddr = r.address.getD 0#32 := rfl
@[simp] theorem State.writeResult_resAddrPresent (s : State) (r : DecodedSignal) :
    (s.writeResult r).resAddrPresent = r.address.isSome := rfl
@[simp] theorem State.writeResult_resBits (s : State) (r : DecodedSignal) :
    (s.writeResult r).resBits = r.bitCount := rfl
@[simp] theorem State.writeResult_resOvf (s : State) (r : DecodedSignal) :
    (s.writeResult r).resOvf = r.overflow := rfl
@[simp] theorem State.writeResult_txCode (s : State) (r : DecodedSignal) :
    (s.writeResult r).txCode = s.txCode := rfl
@[simp] theorem State.writeResult_txBusy (s : State) (r : DecodedSignal) :
    (s.writeResult r).txBusy = s.txBusy := rfl
@[simp] theorem State.writeResult_txFrame (s : State) (r : DecodedSignal) :
    (s.writeResult r).txFrame = s.txFrame := rfl
@[simp] theorem State.writeResult_txIdx (s : State) (r : DecodedSignal) :
    (s.writeResult r).txIdx = s.txIdx := rfl
@[simp] theorem State.writeResult_irTx (s : State) (r : DecodedSignal) :
    (s.writeResult r).irTx = s.irTx := rfl
@[simp] theorem State.writeResult_cmdErr (s : State) (r : DecodedSignal) :
    (s.writeResult r).cmdErr = s.cmdErr := rfl
@[simp] theorem State.writeResult_tickPhase (s : State) (r : DecodedSignal) :
    (s.writeResult r).tickPhase = s.tickPhase := rfl
@[simp] theorem State.writeResult_wireOut (s : State) (r : DecodedSignal) :
    (s.writeResult r).wireOut = s.wireOut := rfl
@[simp] theorem State.writeResult_reads (s : State) (r : DecodedSignal) :
    (s.writeResult r).reads = s.reads := rfl
@[simp] theorem State.writeResult_busErrors (s : State) (r : DecodedSignal) :
    (s.writeResult r).busErrors = s.busErrors := rfl
@[simp] theorem State.writeResult_host (s : State) (r : DecodedSignal) :
    (s.writeResult r).host = s.host := rfl
@[simp] theorem State.writeResult_script (s : State) (r : DecodedSignal) :
    (s.writeResult r).script = s.script := rfl
@[simp] theorem State.writeResult_irIn (s : State) (r : DecodedSignal) :
    (s.writeResult r).irIn = s.irIn := rfl
@[simp] theorem State.writeResult_irTail (s : State) (r : DecodedSignal) :
    (s.writeResult r).irTail = s.irTail := rfl
@[simp] theorem State.writeResult_agenda (s : State) (r : DecodedSignal) :
    (s.writeResult r).agenda = s.agenda := rfl
@[simp] theorem State.writeResult_hostNext (s : State) (r : DecodedSignal) :
    (s.writeResult r).hostNext = s.hostNext := rfl
@[simp] theorem State.writeResult_freeCount (s : State) (r : DecodedSignal) :
    (s.writeResult r).freeCount = s.freeCount := rfl

/-! ## emit -/

@[simp] theorem State.emit_cfg (s : State) (p : Pulse) :
    (s.emit p).cfg = s.cfg := rfl
@[simp] theorem State.emit_capState (s : State) (p : Pulse) :
    (s.emit p).capState = s.capState := rfl
@[simp] theorem State.emit_capLevel (s : State) (p : Pulse) :
    (s.emit p).capLevel = s.capLevel := rfl
@[simp] theorem State.emit_capCnt (s : State) (p : Pulse) :
    (s.emit p).capCnt = s.capCnt := rfl
@[simp] theorem State.emit_buf (s : State) (p : Pulse) :
    (s.emit p).buf = s.buf := rfl
@[simp] theorem State.emit_ovf (s : State) (p : Pulse) :
    (s.emit p).ovf = s.ovf := rfl
@[simp] theorem State.emit_resValid (s : State) (p : Pulse) :
    (s.emit p).resValid = s.resValid := rfl
@[simp] theorem State.emit_resProto (s : State) (p : Pulse) :
    (s.emit p).resProto = s.resProto := rfl
@[simp] theorem State.emit_resValue (s : State) (p : Pulse) :
    (s.emit p).resValue = s.resValue := rfl
@[simp] theorem State.emit_resAddr (s : State) (p : Pulse) :
    (s.emit p).resAddr = s.resAddr := rfl
@[simp] theorem State.emit_resAddrPresent (s : State) (p : Pulse) :
    (s.emit p).resAddrPresent = s.resAddrPresent := rfl
@[simp] theorem State.emit_resBits (s : State) (p : Pulse) :
    (s.emit p).resBits = s.resBits := rfl
@[simp] theorem State.emit_resOvf (s : State) (p : Pulse) :
    (s.emit p).resOvf = s.resOvf := rfl
@[simp] theorem State.emit_txCode (s : State) (p : Pulse) :
    (s.emit p).txCode = s.txCode := rfl
@[simp] theorem State.emit_txBusy (s : State) (p : Pulse) :
    (s.emit p).txBusy = s.txBusy := rfl
@[simp] theorem State.emit_txFrame (s : State) (p : Pulse) :
    (s.emit p).txFrame = s.txFrame := rfl
@[simp] theorem State.emit_txIdx (s : State) (p : Pulse) :
    (s.emit p).txIdx = s.txIdx + 1#7 := rfl
@[simp] theorem State.emit_irTx (s : State) (p : Pulse) :
    (s.emit p).irTx = p.level := rfl
@[simp] theorem State.emit_cmdErr (s : State) (p : Pulse) :
    (s.emit p).cmdErr = s.cmdErr := rfl
@[simp] theorem State.emit_tickPhase (s : State) (p : Pulse) :
    (s.emit p).tickPhase = s.tickPhase := rfl
@[simp] theorem State.emit_wireOut (s : State) (p : Pulse) :
    (s.emit p).wireOut = s.wireOut ++ [p] := rfl
@[simp] theorem State.emit_reads (s : State) (p : Pulse) :
    (s.emit p).reads = s.reads := rfl
@[simp] theorem State.emit_busErrors (s : State) (p : Pulse) :
    (s.emit p).busErrors = s.busErrors := rfl
@[simp] theorem State.emit_host (s : State) (p : Pulse) :
    (s.emit p).host = s.host := rfl
@[simp] theorem State.emit_script (s : State) (p : Pulse) :
    (s.emit p).script = s.script := rfl
@[simp] theorem State.emit_irIn (s : State) (p : Pulse) :
    (s.emit p).irIn = s.irIn := rfl
@[simp] theorem State.emit_irTail (s : State) (p : Pulse) :
    (s.emit p).irTail = s.irTail := rfl
@[simp] theorem State.emit_agenda (s : State) (p : Pulse) :
    (s.emit p).agenda = s.agenda := rfl
@[simp] theorem State.emit_hostNext (s : State) (p : Pulse) :
    (s.emit p).hostNext = s.hostNext := rfl
@[simp] theorem State.emit_freeCount (s : State) (p : Pulse) :
    (s.emit p).freeCount = s.freeCount := rfl

/-! ## resetBlock -/

@[simp] theorem State.resetBlock_cfg (s : State) :
    (s.resetBlock).cfg = s.cfg := rfl
@[simp] theorem State.resetBlock_capState (s : State) :
    (s.resetBlock).capState = .idle := rfl
@[simp] theorem State.resetBlock_capLevel (s : State) :
    (s.resetBlock).capLevel = false := rfl
@[simp] theorem State.resetBlock_capCnt (s : State) :
    (s.resetBlock).capCnt = 0#16 := rfl
@[simp] theorem State.resetBlock_buf (s : State) :
    (s.resetBlock).buf = [] := rfl
@[simp] theorem State.resetBlock_ovf (s : State) :
    (s.resetBlock).ovf = false := rfl
@[simp] theorem State.resetBlock_resValid (s : State) :
    (s.resetBlock).resValid = false := rfl
@[simp] theorem State.resetBlock_resProto (s : State) :
    (s.resetBlock).resProto = 0#4 := rfl
@[simp] theorem State.resetBlock_resValue (s : State) :
    (s.resetBlock).resValue = 0#32 := rfl
@[simp] theorem State.resetBlock_resAddr (s : State) :
    (s.resetBlock).resAddr = 0#32 := rfl
@[simp] theorem State.resetBlock_resAddrPresent (s : State) :
    (s.resetBlock).resAddrPresent = false := rfl
@[simp] theorem State.resetBlock_resBits (s : State) :
    (s.resetBlock).resBits = 0#8 := rfl
@[simp] theorem State.resetBlock_resOvf (s : State) :
    (s.resetBlock).resOvf = false := rfl
@[simp] theorem State.resetBlock_txCode (s : State) :
    (s.resetBlock).txCode = 0#32 := rfl
@[simp] theorem State.resetBlock_txBusy (s : State) :
    (s.resetBlock).txBusy = false := rfl
@[simp] theorem State.resetBlock_txFrame (s : State) :
    (s.resetBlock).txFrame = 0#32 := rfl
@[simp] theorem State.resetBlock_txIdx (s : State) :
    (s.resetBlock).txIdx = 0#7 := rfl
@[simp] theorem State.resetBlock_irTx (s : State) :
    (s.resetBlock).irTx = false := rfl
@[simp] theorem State.resetBlock_cmdErr (s : State) :
    (s.resetBlock).cmdErr = false := rfl
@[simp] theorem State.resetBlock_tickPhase (s : State) :
    (s.resetBlock).tickPhase = Config.freeTickPhase s.freeCount := rfl
@[simp] theorem State.resetBlock_wireOut (s : State) :
    (s.resetBlock).wireOut = [] := rfl
@[simp] theorem State.resetBlock_reads (s : State) :
    (s.resetBlock).reads = s.reads := rfl
@[simp] theorem State.resetBlock_busErrors (s : State) :
    (s.resetBlock).busErrors = s.busErrors := rfl
@[simp] theorem State.resetBlock_host (s : State) :
    (s.resetBlock).host = s.host := rfl
@[simp] theorem State.resetBlock_script (s : State) :
    (s.resetBlock).script = s.script := rfl
@[simp] theorem State.resetBlock_irIn (s : State) :
    (s.resetBlock).irIn = s.irIn := rfl
@[simp] theorem State.resetBlock_irTail (s : State) :
    (s.resetBlock).irTail = s.irTail := rfl
@[simp] theorem State.resetBlock_agenda (s : State) :
    (s.resetBlock).agenda = s.agenda := rfl
@[simp] theorem State.resetBlock_hostNext (s : State) :
    (s.resetBlock).hostNext = s.hostNext := rfl
@[simp] theorem State.resetBlock_freeCount (s : State) :
    (s.resetBlock).freeCount = s.freeCount + 1 := rfl

/-! ## placeAccess -/

@[simp] theorem State.placeAccess_cfg (s : State) (c : Code) :
    (s.placeAccess c).cfg = s.cfg := rfl
@[simp] theorem State.placeAccess_capState (s : State) (c : Code) :
    (s.placeAccess c).capState = s.capState := rfl
@[simp] theorem State.placeAccess_capLevel (s : State) (c : Code) :
    (s.placeAccess c).capLevel = s.capLevel := rfl
@[simp] theorem State.placeAccess_capCnt (s : State) (c : Code) :
    (s.placeAccess c).capCnt = s.capCnt := rfl
@[simp] theorem State.placeAccess_buf (s : State) (c : Code) :
    (s.placeAccess c).buf = s.buf := rfl
@[simp] theorem State.placeAccess_ovf (s : State) (c : Code) :
    (s.placeAccess c).ovf = s.ovf := rfl
@[simp] theorem State.placeAccess_resValid (s : State) (c : Code) :
    (s.placeAccess c).resValid = s.resValid := rfl
@[simp] theorem State.placeAccess_resProto (s : State) (c : Code) :
    (s.placeAccess c).resProto = s.resProto := rfl
@[simp] theorem State.placeAccess_resValue (s : State) (c : Code) :
    (s.placeAccess c).resValue = s.resValue := rfl
@[simp] theorem State.placeAccess_resAddr (s : State) (c : Code) :
    (s.placeAccess c).resAddr = s.resAddr := rfl
@[simp] theorem State.placeAccess_resAddrPresent (s : State) (c : Code) :
    (s.placeAccess c).resAddrPresent = s.resAddrPresent := rfl
@[simp] theorem State.placeAccess_resBits (s : State) (c : Code) :
    (s.placeAccess c).resBits = s.resBits := rfl
@[simp] theorem State.placeAccess_resOvf (s : State) (c : Code) :
    (s.placeAccess c).resOvf = s.resOvf := rfl
@[simp] theorem State.placeAccess_txCode (s : State) (c : Code) :
    (s.placeAccess c).txCode = s.txCode := rfl
@[simp] theorem State.placeAccess_txBusy (s : State) (c : Code) :
    (s.placeAccess c).txBusy = s.txBusy := rfl
@[simp] theorem State.placeAccess_txFrame (s : State) (c : Code) :
    (s.placeAccess c).txFrame = s.txFrame := rfl
@[simp] theorem State.placeAccess_txIdx (s : State) (c : Code) :
    (s.placeAccess c).txIdx = s.txIdx := rfl
@[simp] theorem State.placeAccess_irTx (s : State) (c : Code) :
    (s.placeAccess c).irTx = s.irTx := rfl
@[simp] theorem State.placeAccess_cmdErr (s : State) (c : Code) :
    (s.placeAccess c).cmdErr = s.cmdErr := rfl
@[simp] theorem State.placeAccess_tickPhase (s : State) (c : Code) :
    (s.placeAccess c).tickPhase = s.tickPhase := rfl
@[simp] theorem State.placeAccess_wireOut (s : State) (c : Code) :
    (s.placeAccess c).wireOut = s.wireOut := rfl
@[simp] theorem State.placeAccess_reads (s : State) (c : Code) :
    (s.placeAccess c).reads = s.reads := rfl
@[simp] theorem State.placeAccess_busErrors (s : State) (c : Code) :
    (s.placeAccess c).busErrors = s.busErrors := rfl
@[simp] theorem State.placeAccess_host (s : State) (c : Code) :
    (s.placeAccess c).host = s.host := rfl
@[simp] theorem State.placeAccess_script (s : State) (c : Code) :
    (s.placeAccess c).script = HostOp.ofCode c :: s.script := rfl
@[simp] theorem State.placeAccess_irIn (s : State) (c : Code) :
    (s.placeAccess c).irIn = s.irIn := rfl
@[simp] theorem State.placeAccess_irTail (s : State) (c : Code) :
    (s.placeAccess c).irTail = s.irTail := rfl
@[simp] theorem State.placeAccess_agenda (s : State) (c : Code) :
    (s.placeAccess c).agenda = .host :: s.agenda := rfl
@[simp] theorem State.placeAccess_hostNext (s : State) (c : Code) :
    (s.placeAccess c).hostNext = s.hostNext := rfl
@[simp] theorem State.placeAccess_freeCount (s : State) (c : Code) :
    (s.placeAccess c).freeCount = s.freeCount := rfl

end Sys2Proof.Machine
end

