-- ==== Sys2Proof/Laws/Ops.lean ====
section
/-! SUPPORT. What each shared operation can do, said once: the ends of an access and of a transmission, the capture unit's
two moves, and the inversion of every meaning that branches. -/

namespace Sys2Proof.Machine

/-- An access that goes on: either the meaning went on, or it was a bus error and only its record was added. -/
theorem endAccess_eq_next {s t : State} {o : Host.Outcome State Fault Refusal} (h : endAccess s o = .next t) :
    o = .next t ∨ ∃ addr, o = .fault (.busError addr) ∧ t = s.recordBusError addr := by
  match o with
  | .next _ => exact .inl h
  | .fault (.busError addr) =>
    cases h
    exact .inr ⟨addr, rfl, rfl⟩

/-- Ending a transmission clears the output and `tx_busy`, and empties the capture unit exactly when it was receiving. -/
theorem transmissionEnd_cases (s : State) :
    (s.capState = .receiving ∧ s.transmissionEnd = { s.clearCapture with irTx := false, txBusy := false })
    ∨ (s.capState ≠ .receiving ∧ s.transmissionEnd = { s with irTx := false, txBusy := false }) := by
  unfold State.transmissionEnd State.captureAfterTx State.clearCapture
  cases hc : s.capState
  · right; simp
  · left; simp
  · right; simp
  · right; simp

theorem countTick_toNat (c : Ticks) : (countTick c).toNat = min (c.toNat + 1) 65535 := by
  have := c.isLt
  unfold countTick
  split
  · rename_i h; subst h; rfl
  · rename_i h
    have hne : c.toNat ≠ 65535 := fun e => h (BitVec.eq_of_toNat_eq (by simpa using e))
    rw [BitVec.toNat_add]
    simp only [BitVec.toNat_ofNat]
    omega

/-- A state keeps its own result exactly when its six result registers hold it. -/
theorem writeResult_eq_self_iff (s : State) (r : DecodedSignal) :
    s.writeResult r = s ↔
      protocolCode r.protocol = s.resProto ∧ r.value = s.resValue ∧ r.address.getD 0#32 = s.resAddr
      ∧ r.address.isSome = s.resAddrPresent ∧ r.bitCount = s.resBits ∧ r.overflow = s.resOvf := by
  cases s
  simp only [State.writeResult, State.mk.injEq, true_and, and_true]

/-- A count while receiving completes the frame exactly when a space reaches the gap. -/
theorem countSample_cases (s : State) :
    (s.capLevel = false ∧ s.cfg.gapTicks ≤ (countTick s.capCnt).toNat
      ∧ s.countSample = { s with capCnt := countTick s.capCnt, capState := .frameComplete })
    ∨ ((s.capLevel = true ∨ (countTick s.capCnt).toNat < s.cfg.gapTicks)
      ∧ s.countSample = { s with capCnt := countTick s.capCnt }) := by
  unfold State.countSample
  split
  · rename_i h
    exact .inl ⟨h.1, h.2, rfl⟩
  · rename_i h
    refine .inr ⟨?_, rfl⟩
    cases hl : s.capLevel
    · exact .inr (Nat.lt_of_not_le fun hg => h ⟨hl, hg⟩)
    · exact .inl rfl

/-- An edge while receiving overflows exactly when it fills the buffer. -/
theorem recordEdge_cases (s : State) (mark : Level) :
    (s.buf.length + 1 = s.cfg.rawbuf
      ∧ s.recordEdge mark = { s with buf := s.buf ++ [s.capCnt], capState := .overflow, ovf := true })
    ∨ (s.buf.length + 1 ≠ s.cfg.rawbuf
      ∧ s.recordEdge mark = { s with buf := s.buf ++ [s.capCnt], capLevel := mark, capCnt := 1#16 }) := by
  unfold State.recordEdge
  split
  · rename_i h
    exact .inl ⟨h, rfl⟩
  · rename_i h
    exact .inr ⟨h, rfl⟩

theorem ready_iff (s : State) : s.ready = true ↔ s.capState = .frameComplete ∨ s.capState = .overflow := by
  unfold State.ready
  cases s.capState <;> simp

theorem execSample_cases {mark : Level} {s t : State} (h : execSample mark s = .next t) :
    t = s
    ∨ (s.txBusy = false ∧ s.capState = .idle ∧ mark = true
        ∧ t = { s with capState := .receiving, capLevel := true, capCnt := 1#16 })
    ∨ (s.txBusy = false ∧ s.capState = .receiving ∧ mark = s.capLevel ∧ t = s.countSample)
    ∨ (s.txBusy = false ∧ s.capState = .receiving ∧ mark = !s.capLevel ∧ t = s.recordEdge mark) := by
  unfold execSample at h
  cases hb : s.txBusy
  · cases hc : s.capState <;> simp only [hb, hc, if_false, Bool.false_eq_true] at h
    · cases mark
      · simp at h; exact .inl h.symm
      · simp at h; exact .inr (.inl ⟨rfl, rfl, rfl, h.symm⟩)
    · split at h
      · cases h; exact .inr (.inr (.inl ⟨rfl, rfl, ‹_›, rfl⟩))
      · cases h; exact .inr (.inr (.inr ⟨rfl, rfl, Bool.eq_not.mpr ‹_›, rfl⟩))
    · cases h; exact .inl rfl
    · cases h; exact .inl rfl
  · simp only [hb, if_true] at h
    cases h; exact .inl rfl

theorem execTxPulse_cases {s t : State} (h : execTxPulse s = .next t) :
    t = s
    ∨ ∃ p, s.txBusy = true ∧ (necPulses s.txFrame)[s.txIdx.toNat]? = some p
        ∧ ((s.txIdx ≠ 66#7 ∧ t = s.emit p) ∨ (s.txIdx = 66#7 ∧ t = (s.emit p).transmissionEnd)) := by
  unfold execTxPulse at h
  split at h
  · split at h
    · rename_i hb _ p hp
      refine .inr ⟨p, hb, hp, ?_⟩
      split at h
      · rename_i he
        cases h
        rw [State.emit_txIdx] at he
        exact .inr ⟨by bv_omega, rfl⟩
      · rename_i he
        cases h
        exact .inl ⟨fun e => he (by rw [State.emit_txIdx, e]; rfl), rfl⟩
    · cases h; exact .inl rfl
  · cases h; exact .inl rfl

theorem execTxEnd_cases {s t : State} (h : execTxEnd s = .next t) :
    t = s ∨ (s.txBusy = true ∧ s.txIdx = 67#7 ∧ t = s.transmissionEnd) := by
  unfold execTxEnd at h
  split at h
  · rename_i hb
    simp only [Bool.and_eq_true, beq_iff_eq] at hb
    cases h
    exact .inr ⟨hb.1, hb.2, rfl⟩
  · cases h; exact .inl rfl

theorem execSend_cases {s t : State} (h : execSend s = .next t) :
    (s.txBusy = true ∧ t = s.flagCommand)
    ∨ (s.txBusy = false ∧ t = { s with txFrame := necFrame s.txCode, txIdx := 0#7, txBusy := true }) := by
  unfold execSend at h
  split at h <;> cases h
  · exact .inl ⟨‹_›, rfl⟩
  · exact .inr ⟨Bool.eq_false_iff.mpr ‹_›, rfl⟩

theorem execDecode_cases {s t : State} (h : execDecode s = .next t) :
    (s.ready = true ∧ t = { s.writeResult (decodeTrain s.cfg s.buf s.ovf) with resValid := true })
    ∨ (s.ready = false ∧ t = { s with resValid := false }) := by
  unfold execDecode at h
  split at h <;> cases h
  · exact .inl ⟨‹_›, rfl⟩
  · exact .inr ⟨Bool.eq_false_iff.mpr ‹_›, rfl⟩

/-- A CMD write is the command of its OP field. -/
theorem execWrCmd_eq (d : Word) (s : State) : execWrCmd d s = exec (decodeCmd d) s := by
  unfold execWrCmd decodeCmd
  simp only
  split_ifs <;> rfl

end Sys2Proof.Machine
end

