-- ==== Sys2Proof/Laws/Exec.lean ====
section
/-! SUPPORT. What an instruction can do, said once: `exec_effect` lists every next state `exec` answers, with the instruction
and the condition it comes from; `step_effect` carries it to the machine's step. Invariants and the "only writers" rules
follow by cases on `Effect`. -/

namespace Sys2Proof.Machine

/-- The next states of an instruction `i` in a state `s`. -/
inductive Effect (i : Instr) (s : State) : State → Prop where
  | same : Effect i s s
  | read (w : Word) (h : isRead i = true) : Effect i s (s.respond w)
  | storeCode (d : Word) (h : i = .wrTxCode d) : Effect i s { s with txCode := d }
  | clearError (h : commandOp i = some 0#4) : Effect i s { s with cmdErr := false }
  | flagReserved (op : BitVec 4) (h : commandOp i = some op) (hop : 4 ≤ op.toNat ∨ i.WellFormed = false) :
      Effect i s s.flagCommand
  | flagBusy (h : commandOp i = some 3#4) (hb : s.txBusy = true) : Effect i s s.flagCommand
  | resumed (h : commandOp i = some 1#4) : Effect i s { s.clearCapture with ovf := false, resValid := false }
  | decoded (h : commandOp i = some 2#4) (hr : s.ready = true) :
      Effect i s { s.writeResult (decodeTrain s.cfg s.buf s.ovf) with resValid := true }
  | notReady (h : commandOp i = some 2#4) (hr : s.ready = false) : Effect i s { s with resValid := false }
  | sent (h : commandOp i = some 3#4) (hb : s.txBusy = false) :
      Effect i s { s with txFrame := necFrame s.txCode, txIdx := 0#7, txBusy := true }
  | started (h : i = .sample true) (hb : s.txBusy = false) (hc : s.capState = .idle) :
      Effect i s { s with capState := .receiving, capLevel := true, capCnt := 1#16 }
  | counted (h : i = .sample s.capLevel) (hb : s.txBusy = false) (hc : s.capState = .receiving) :
      Effect i s s.countSample
  | recorded (h : i = .sample (!s.capLevel)) (hb : s.txBusy = false) (hc : s.capState = .receiving) :
      Effect i s (s.recordEdge (!s.capLevel))
  | pulse (p : Pulse) (h : i = .txPulse) (hb : s.txBusy = true)
      (hp : (necPulses s.txFrame)[s.txIdx.toNat]? = some p) (hx : s.txIdx ≠ 66#7) : Effect i s (s.emit p)
  | lastPulse (p : Pulse) (h : i = .txPulse) (hb : s.txBusy = true)
      (hp : (necPulses s.txFrame)[s.txIdx.toNat]? = some p) (hx : s.txIdx = 66#7) :
      Effect i s (s.emit p).transmissionEnd
  | ended (h : i = .txEnd) (hb : s.txBusy = true) (hx : s.txIdx = 67#7) : Effect i s s.transmissionEnd
  | reset (h : i = .rst) : Effect i s s.resetBlock

theorem effect_of_send {i : Instr} {s t : State} (hi : commandOp i = some 3#4) (h : execSend s = .next t) :
    Effect i s t := by
  obtain ⟨hb, rfl⟩ | ⟨hb, rfl⟩ := execSend_cases h
  · exact .flagBusy hi hb
  · exact .sent hi hb

theorem effect_of_decode {i : Instr} {s t : State} (hi : commandOp i = some 2#4) (h : execDecode s = .next t) :
    Effect i s t := by
  obtain ⟨hr, rfl⟩ | ⟨hr, rfl⟩ := execDecode_cases h
  · exact .decoded hi hr
  · exact .notReady hi hr

theorem effect_of_sample {mark : Level} {s t : State} (h : execSample mark s = .next t) :
    Effect (.sample mark) s t := by
  obtain rfl | ⟨hb, hc, rfl, rfl⟩ | ⟨hb, hc, rfl, rfl⟩ | ⟨hb, hc, rfl, rfl⟩ := execSample_cases h
  · exact .same
  · exact .started rfl hb hc
  · exact .counted rfl hb hc
  · exact .recorded rfl hb hc

theorem effect_of_txPulse {s t : State} (h : execTxPulse s = .next t) : Effect .txPulse s t := by
  obtain rfl | ⟨p, hb, hp, ⟨hx, rfl⟩ | ⟨hx, rfl⟩⟩ := execTxPulse_cases h
  · exact .same
  · exact .pulse p rfl hb hp hx
  · exact .lastPulse p rfl hb hp hx

theorem effect_of_txEnd {s t : State} (h : execTxEnd s = .next t) : Effect .txEnd s t := by
  obtain rfl | ⟨hb, hx, rfl⟩ := execTxEnd_cases h
  · exact .same
  · exact .ended rfl hb hx

/-- A reserved OP of 0 to 3 is ill-formed. -/
theorem rsvdCmd4to7_op (op : BitVec 4) : 4 ≤ op.toNat ∨ (Instr.rsvdCmd4to7 op).WellFormed = false := by
  revert op; decide

theorem rsvdCmd8to15_op (op : BitVec 4) : 4 ≤ op.toNat ∨ (Instr.rsvdCmd8to15 op).WellFormed = false := by
  revert op; decide

theorem effect_of_wrCmd {d : Word} {s t : State} (h : execWrCmd d s = .next t) : Effect (.wrCmd d) s t := by
  have key : commandOp (.wrCmd d) = some (Word.opField d) := rfl
  unfold execWrCmd at h
  simp only at h
  split_ifs at h with h0 h1 h2 h3 h8
  · cases h; exact .clearError (h0 ▸ key)
  · cases h; exact .resumed (h1 ▸ key)
  · exact effect_of_decode (h2 ▸ key) h
  · exact effect_of_send (h3 ▸ key) h
  all_goals
    cases h
    refine .flagReserved _ key (.inl ?_)
    generalize Word.opField d = op at h0 h1 h2 h3
    revert op; decide

/-- Every next state of every instruction. -/
theorem exec_effect {i : Instr} {s t : State} (h : exec i s = .next t) : Effect i s t := by
  cases i
  case nop => cases h; exact .clearError rfl
  case resume => cases h; exact .resumed rfl
  case decode => exact effect_of_decode rfl h
  case send => exact effect_of_send rfl h
  case rsvdCmd4to7 op => cases h; exact .flagReserved op rfl (rsvdCmd4to7_op op)
  case rsvdCmd8to15 op => cases h; exact .flagReserved op rfl (rsvdCmd8to15_op op)
  case wrCmd d => exact effect_of_wrCmd h
  case wrTxCode d => cases h; exact .storeCode d rfl
  case sample mark => exact effect_of_sample h
  case txPulse => exact effect_of_txPulse h
  case txEnd => exact effect_of_txEnd h
  case rst => cases h; exact .reset rfl
  all_goals first
    | (cases h; done)
    | (cases h; exact .read _ rfl)
    | (cases h; exact .same)

/-! ## The step -/

/-- The state with the agents' and the observers' fields blanked: what the block's rules read and write. -/
def State.block (s : State) : State :=
  { s with
    reads := [], busErrors := [], host := .initial, script := [], irIn := [], irTail := .over, agenda := [], hostNext := true
    freeCount := 0 }

/-- Driving a level changes the environment's pending levels alone. -/
theorem nextLevel_block (s : State) : s.nextLevel.2.block = s.block := by
  unfold State.nextLevel
  split <;> rfl

/-- A tick is a SAMPLE of the environment's next level, or nothing during a transmission. -/
theorem tickTurn_cases (s : State) :
    (s.txBusy = true ∧ tickTurn s = .next s)
    ∨ (s.txBusy = false ∧ tickTurn s = exec (.sample s.nextLevel.1) s.nextLevel.2) := by
  unfold tickTurn
  cases s.txBusy
  · exact .inr ⟨rfl, rfl⟩
  · exact .inl ⟨rfl, rfl⟩

/-- A level that passes unseen changes nothing of the block. -/
theorem unseenTurn_cases (s : State) : ∃ t, unseenTurn s = .next t ∧ t.block = s.block := by
  unfold unseenTurn
  split
  · exact ⟨_, rfl, nextLevel_block s⟩
  · exact ⟨_, rfl, rfl⟩

/-- The invariant is about the block alone. -/
theorem inv_block (s : State) : s.block.Inv ↔ s.Inv := by
  have hr : s.block.writeResult (decodeTrain s.cfg s.buf s.ovf) = s.block
      ↔ s.writeResult (decodeTrain s.cfg s.buf s.ovf) = s := by
    rw [writeResult_eq_self_iff, writeResult_eq_self_iff]
    exact Iff.rfl
  constructor
  · rintro ⟨h1, h2, h3, h4, h5, h6⟩
    exact ⟨h1, h2, h3, h4, fun h => ⟨(h5 h).1, hr.mp (h5 h).2⟩, h6⟩
  · rintro ⟨h1, h2, h3, h4, h5, h6⟩
    exact ⟨h1, h2, h3, h4, fun h => ⟨(h5 h).1, hr.mpr (h5 h).2⟩, h6⟩

theorem performAccess_effect {c : Code} {s t : State} (h : performAccess c s = .next t) :
    (∃ i, Effect i s t) ∨ ∃ addr, t = s.recordBusError addr := by
  obtain h | ⟨addr, -, rfl⟩ := endAccess_eq_next h
  · exact .inl ⟨_, exec_effect h⟩
  · exact .inr ⟨addr, rfl⟩

/-- A step's effect on the block is that of one instruction: from a state with the same block to one with the same block. -/
theorem step_effect {s t : State} (h : step s = .next t) :
    ∃ (i : Instr) (u v : State), u.block = s.block ∧ v.block = t.block ∧ Effect i u v := by
  have access : ∀ {c : Code} {u v t : State}, u.block = s.block → performAccess c u = .next v → v.block = t.block →
      ∃ (i : Instr) (u v : State), u.block = s.block ∧ v.block = t.block ∧ Effect i u v := by
    intro c u v t hu hp hv
    obtain ⟨i, he⟩ | ⟨addr, rfl⟩ := performAccess_effect hp
    · exact ⟨i, u, v, hu, hv, he⟩
    · exact ⟨.nop, u, u, hu, hv, .same⟩
  have hpass : s.passTurn.block = s.block := by
    unfold State.passTurn
    split <;> rfl
  unfold step at h
  generalize s.passTurn = r at h hpass
  cases hturn : s.nextTurn <;> rw [hturn] at h
  · unfold runTurn hostTurn at h
    simp only at h
    split at h
    · rename_i op rest hs
      cases op <;> simp only [scriptStep] at h
      · exact access (u := { r with script := rest }) hpass h rfl
      · exact access (u := { r with script := rest }) hpass h rfl
      · split at h
        · exact access (u := { r with script := rest }) hpass h rfl
        · cases h
      · split at h
        · rename_i hp
          split at h <;> cases h
          · exact access hpass hp rfl
          · exact access hpass hp rfl
        · cases h
        · cases h
      · cases h
        exact ⟨.nop, r, r, hpass, rfl, .same⟩
    · unfold softwareStep at h
      split at h
      · cases h
        exact ⟨.nop, r, r, hpass, rfl, .same⟩
      · split at h
        · rename_i hp
          cases h
          exact access hpass hp rfl
        · cases h
        · cases h
  · obtain ⟨-, e⟩ | ⟨-, e⟩ := tickTurn_cases r
    · cases e.symm.trans h
      exact ⟨.nop, t, t, hpass, rfl, .same⟩
    · exact ⟨_, r.nextLevel.2, t, (nextLevel_block r).trans hpass, rfl, exec_effect (e.symm.trans h)⟩
  · unfold runTurn txTurn at h
    simp only at h
    split at h <;> exact ⟨_, r, t, hpass, rfl, exec_effect h⟩
  · exact ⟨.rst, r, t, hpass, rfl, exec_effect h⟩
  · obtain ⟨u, e, hu⟩ := unseenTurn_cases r
    cases e.symm.trans h
    exact ⟨.nop, r, r, hpass, hu.symm, .same⟩

end Sys2Proof.Machine
end

