-- ==== Sys2Proof/Laws/PerInstr.lean ====
section
/-! SUPPORT. The family TableRow, one lemma per constructor: the encoding of a well-formed instruction has the bits of its
row of spec/opcode_table.json (the row's match under its mask), and only the internal steps have none. -/

namespace Sys2Proof.Laws.TableRow

/-- The row of an instruction: mask and match of a descriptor (format bus) or of a command word (format cmd). -/
inductive Row where
  | bus (mask value : Descriptor)
  | cmd (mask value : Word)
  | internal
  deriving DecidableEq, Repr

/-- The rows of spec/opcode_table.json. -/
def row : Instr → Row
  | .nop => .cmd 0xF#32 0x0#32
  | .resume => .cmd 0xF#32 0x1#32
  | .decode => .cmd 0xF#32 0x2#32
  | .send => .cmd 0xF#32 0x3#32
  | .rsvdCmd4to7 _ => .cmd 0xC#32 0x4#32
  | .rsvdCmd8to15 _ => .cmd 0x8#32 0x8#32
  | .sample _ => .internal
  | .txPulse => .internal
  | .txEnd => .internal
  | .rst => .internal
  | .busErrSize0 _ _ => .bus 0x6000#15 0x0#15
  | .busErrSize1 _ _ => .bus 0x6000#15 0x2000#15
  | .busErrSize3 _ _ => .bus 0x6000#15 0x6000#15
  | .busErrMisalign1 _ _ => .bus 0x6003#15 0x4001#15
  | .busErrMisalign2 _ _ => .bus 0x6003#15 0x4002#15
  | .busErrMisalign3 _ _ => .bus 0x6003#15 0x4003#15
  | .rdCaps => .bus 0x7FFF#15 0x4000#15
  | .wrCaps _ => .bus 0x7FFF#15 0x5000#15
  | .rdCmd => .bus 0x7FFF#15 0x4004#15
  | .wrCmd _ => .bus 0x7FFF#15 0x5004#15
  | .rdStatus => .bus 0x7FFF#15 0x4008#15
  | .wrStatus _ => .bus 0x7FFF#15 0x5008#15
  | .rdRawlen => .bus 0x7FFF#15 0x400C#15
  | .wrRawlen _ => .bus 0x7FFF#15 0x500C#15
  | .rdTxCode => .bus 0x7FFF#15 0x4010#15
  | .wrTxCode _ => .bus 0x7FFF#15 0x5010#15
  | .rdResProto => .bus 0x7FFF#15 0x4014#15
  | .wrResProto _ => .bus 0x7FFF#15 0x5014#15
  | .rdResValue => .bus 0x7FFF#15 0x4018#15
  | .wrResValue _ => .bus 0x7FFF#15 0x5018#15
  | .rdResAddr => .bus 0x7FFF#15 0x401C#15
  | .wrResAddr _ => .bus 0x7FFF#15 0x501C#15
  | .rdResInfo => .bus 0x7FFF#15 0x4020#15
  | .wrResInfo _ => .bus 0x7FFF#15 0x5020#15
  | .rdRaw _ => .bus 0x7803#15 0x4800#15
  | .wrRaw _ _ => .bus 0x7803#15 0x5800#15
  | .rdRsvd024 => .bus 0x7FFF#15 0x4024#15
  | .wrRsvd024 _ => .bus 0x7FFF#15 0x5024#15
  | .rdRsvd028 _ => .bus 0x7FFB#15 0x4028#15
  | .wrRsvd028 _ _ => .bus 0x7FFB#15 0x5028#15
  | .rdRsvd030 _ => .bus 0x7FF3#15 0x4030#15
  | .wrRsvd030 _ _ => .bus 0x7FF3#15 0x5030#15
  | .rdRsvd040 _ => .bus 0x7FC3#15 0x4040#15
  | .wrRsvd040 _ _ => .bus 0x7FC3#15 0x5040#15
  | .rdRsvd080 _ => .bus 0x7F83#15 0x4080#15
  | .wrRsvd080 _ _ => .bus 0x7F83#15 0x5080#15
  | .rdRsvd100 _ => .bus 0x7F03#15 0x4100#15
  | .wrRsvd100 _ _ => .bus 0x7F03#15 0x5100#15
  | .rdRsvd200 _ => .bus 0x7E03#15 0x4200#15
  | .wrRsvd200 _ _ => .bus 0x7E03#15 0x5200#15
  | .rdRsvd400 _ => .bus 0x7C03#15 0x4400#15
  | .wrRsvd400 _ _ => .bus 0x7C03#15 0x5400#15

/-- An encoding has the bits of a row. -/
def Row.fits : Row → Option Code → Prop
  | .bus mask value, some (.bus desc _) => desc &&& mask = value
  | .cmd mask value, some (.cmd word) => word &&& mask = value
  | .internal, none => True
  | _, _ => False

/-- The encoding of a well-formed instruction has the bits of its row. -/
def Statement (i : Instr) : Prop := i.WellFormed = true → (row i).fits (encode i)

/-- A descriptor under a mask, field by field. -/
theorem mk_and (size ms : BitVec 2) (write : Bool) (mw : BitVec 1) (off mo : Offset) :
    Descriptor.mk size write off &&& (ms ++ mw ++ mo : BitVec 15)
      = (size &&& ms) ++ (BitVec.ofBool write &&& mw) ++ (off &&& mo) := by
  unfold Descriptor.mk
  rw [BitVec.and_append, BitVec.and_append]

/-- A misaligned word access under its row's mask (SIZE and OFFSET[1:0]). -/
theorem misaligned_fits (write : Bool) (off value : Offset) (h : off &&& 0x003#12 = value) :
    Descriptor.wordAccess write off &&& 0x6003#15 = 2#2 ++ 0#1 ++ value := by
  rw [show (0x6003#15) = (3#2 ++ 0#1 ++ 0x003#12 : BitVec 15) from rfl]
  unfold Descriptor.wordAccess
  rw [mk_and, h]
  cases write <;> rfl

/-- A word access to a block of offsets under its row's mask. -/
theorem block_fits (write : Bool) (off mask value : Offset) (h : off.fits mask value = true) :
    Descriptor.wordAccess write off &&& (3#2 ++ 1#1 ++ mask : BitVec 15)
      = 2#2 ++ BitVec.ofBool write ++ value := by
  unfold Offset.fits at h
  unfold Descriptor.wordAccess
  rw [mk_and, beq_iff_eq.mp h]
  cases write <;> rfl

/-- Every offset of the RAW window lies in its block. -/
theorem ofRaw_fits (k : BitVec 9) : (Offset.ofRaw k).fits 0x803#12 0x800#12 = true := by
  unfold Offset.fits Offset.ofRaw
  rw [show (0x803#12) = (1#1 ++ 0#9 ++ 3#2 : BitVec 12) from rfl, BitVec.and_append, BitVec.and_append]
  simp

/-- A refused size under its row's mask (SIZE alone). -/
theorem size_fits (size : BitVec 2) (write : Bool) (off : Offset) :
    Descriptor.mk size write off &&& 0x6000#15 = size ++ 0#1 ++ 0#12 := by
  rw [show (0x6000#15) = (3#2 ++ 0#1 ++ 0#12 : BitVec 15) from rfl, mk_and]
  revert size
  cases write <;> simp <;> decide

theorem nop : Statement .nop := fun _ => rfl

theorem resume : Statement .resume := fun _ => rfl

theorem decode : Statement .decode := fun _ => rfl

theorem send : Statement .send := fun _ => rfl

theorem rsvdCmd4to7 (op : BitVec 4) : Statement (.rsvdCmd4to7 op) := by
  show _ → op.setWidth 32 &&& 0xC#32 = 0x4#32
  revert op; decide

theorem rsvdCmd8to15 (op : BitVec 4) : Statement (.rsvdCmd8to15 op) := by
  show _ → op.setWidth 32 &&& 0x8#32 = 0x8#32
  revert op; decide

theorem sample (mark : Level) : Statement (.sample mark) := fun _ => trivial

theorem txPulse : Statement .txPulse := fun _ => trivial

theorem txEnd : Statement .txEnd := fun _ => trivial

theorem rst : Statement .rst := fun _ => trivial

theorem busErrSize0 (write : Bool) (off : Offset) : Statement (.busErrSize0 write off) := fun _ =>
  size_fits 0#2 write off

theorem busErrSize1 (write : Bool) (off : Offset) : Statement (.busErrSize1 write off) := fun _ =>
  size_fits 1#2 write off

theorem busErrSize3 (write : Bool) (off : Offset) : Statement (.busErrSize3 write off) := fun _ =>
  size_fits 3#2 write off

theorem busErrMisalign1 (write : Bool) (off : Offset) : Statement (.busErrMisalign1 write off) := fun h =>
  misaligned_fits write off 0x001#12 (beq_iff_eq.mp h)

theorem busErrMisalign2 (write : Bool) (off : Offset) : Statement (.busErrMisalign2 write off) := fun h =>
  misaligned_fits write off 0x002#12 (beq_iff_eq.mp h)

theorem busErrMisalign3 (write : Bool) (off : Offset) : Statement (.busErrMisalign3 write off) := fun h =>
  misaligned_fits write off 0x003#12 (beq_iff_eq.mp h)

theorem rdCaps : Statement .rdCaps := fun _ => rfl

theorem wrCaps (data : Word) : Statement (.wrCaps data) := fun _ => rfl

theorem rdCmd : Statement .rdCmd := fun _ => rfl

theorem wrCmd (data : Word) : Statement (.wrCmd data) := fun _ => rfl

theorem rdStatus : Statement .rdStatus := fun _ => rfl

theorem wrStatus (data : Word) : Statement (.wrStatus data) := fun _ => rfl

theorem rdRawlen : Statement .rdRawlen := fun _ => rfl

theorem wrRawlen (data : Word) : Statement (.wrRawlen data) := fun _ => rfl

theorem rdTxCode : Statement .rdTxCode := fun _ => rfl

theorem wrTxCode (data : Word) : Statement (.wrTxCode data) := fun _ => rfl

theorem rdResProto : Statement .rdResProto := fun _ => rfl

theorem wrResProto (data : Word) : Statement (.wrResProto data) := fun _ => rfl

theorem rdResValue : Statement .rdResValue := fun _ => rfl

theorem wrResValue (data : Word) : Statement (.wrResValue data) := fun _ => rfl

theorem rdResAddr : Statement .rdResAddr := fun _ => rfl

theorem wrResAddr (data : Word) : Statement (.wrResAddr data) := fun _ => rfl

theorem rdResInfo : Statement .rdResInfo := fun _ => rfl

theorem wrResInfo (data : Word) : Statement (.wrResInfo data) := fun _ => rfl

theorem rdRaw (k : BitVec 9) : Statement (.rdRaw k) := fun _ =>
  block_fits false _ _ _ (ofRaw_fits k)

theorem wrRaw (k : BitVec 9) (data : Word) : Statement (.wrRaw k data) := fun _ =>
  block_fits true _ _ _ (ofRaw_fits k)

theorem rdRsvd024 : Statement .rdRsvd024 := fun _ => rfl

theorem wrRsvd024 (data : Word) : Statement (.wrRsvd024 data) := fun _ => rfl

theorem rdRsvd028 (off : Offset) : Statement (.rdRsvd028 off) := fun h =>
  block_fits false off _ _ h

theorem wrRsvd028 (off : Offset) (data : Word) : Statement (.wrRsvd028 off data) := fun h =>
  block_fits true off _ _ h

theorem rdRsvd030 (off : Offset) : Statement (.rdRsvd030 off) := fun h =>
  block_fits false off _ _ h

theorem wrRsvd030 (off : Offset) (data : Word) : Statement (.wrRsvd030 off data) := fun h =>
  block_fits true off _ _ h

theorem rdRsvd040 (off : Offset) : Statement (.rdRsvd040 off) := fun h =>
  block_fits false off _ _ h

theorem wrRsvd040 (off : Offset) (data : Word) : Statement (.wrRsvd040 off data) := fun h =>
  block_fits true off _ _ h

theorem rdRsvd080 (off : Offset) : Statement (.rdRsvd080 off) := fun h =>
  block_fits false off _ _ h

theorem wrRsvd080 (off : Offset) (data : Word) : Statement (.wrRsvd080 off data) := fun h =>
  block_fits true off _ _ h

theorem rdRsvd100 (off : Offset) : Statement (.rdRsvd100 off) := fun h =>
  block_fits false off _ _ h

theorem wrRsvd100 (off : Offset) (data : Word) : Statement (.wrRsvd100 off data) := fun h =>
  block_fits true off _ _ h

theorem rdRsvd200 (off : Offset) : Statement (.rdRsvd200 off) := fun h =>
  block_fits false off _ _ h

theorem wrRsvd200 (off : Offset) (data : Word) : Statement (.wrRsvd200 off data) := fun h =>
  block_fits true off _ _ h

theorem rdRsvd400 (off : Offset) : Statement (.rdRsvd400 off) := fun h =>
  block_fits false off _ _ h

theorem wrRsvd400 (off : Offset) (data : Word) : Statement (.wrRsvd400 off data) := fun h =>
  block_fits true off _ _ h

end Sys2Proof.Laws.TableRow
end

