-- ==== Sys2Proof/Tests/Slice0.lean ====
section
/-! SUPPORT. Small tests of one step each, expected values from spec/95_test_vectors.md or worked out from the encodings of
30_encoding.md, and for every obligation with hypotheses a witness that meets them. -/

namespace Sys2Proof.Tests

open Sys2Proof.Machine

/-! ## Helpers -/

/-- `NEC(F)` of 95_test_vectors.md: the nominal counts at 50 us per tick. -/
def necTrain (frame : Word) : List Ticks :=
  [180#16, 90#16] ++ (List.range 32).flatMap (fun i => [11#16, if frame.getLsbD i then 34#16 else 11#16]) ++ [11#16]

/-- FrameComplete of `NEC(0x20DF10EF)` (V-BUS-15). -/
def held : State := { State.reset with capState := .frameComplete, buf := necTrain 0x20DF10EF#32 }

/-- L1-4 after its stimulus: 100 entries of 11, Overflow. -/
def overflowed : State :=
  { State.reset with capState := .overflow, ovf := true, buf := List.replicate 100 11#16, capLevel := false, capCnt := 11#16 }

/-- Receiving a mark of 5 ticks after `drive M 180`, `drive S 90` (V-CAP-12). -/
def receivingMark : State :=
  { State.reset with capState := .receiving, buf := [180#16, 90#16], capLevel := true, capCnt := 5#16 }

/-- Receiving a space of 99 ticks after `drive M 3` (V-CAP-5). -/
def receivingSpace : State :=
  { State.reset with capState := .receiving, buf := [3#16], capLevel := false, capCnt := 99#16 }

/-- L1-4 just before the edge that fills the buffer. -/
def almostFull : State :=
  { State.reset with capState := .receiving, buf := List.replicate 99 11#16, capLevel := false, capCnt := 11#16 }

/-- `send 0x10EF` with `idx` pulses emitted. -/
def sending (idx : BitVec 7) : State :=
  { State.reset with
    txCode := 0x10EF#32, txBusy := true, txFrame := 0x20DF10EF#32, txIdx := idx
    irTx := decide (idx.toNat % 2 = 1), wireOut := (necPulses 0x20DF10EF#32).take idx.toNat }

/-- The field `f` of the state an instruction answers, if it answers one. -/
def after {α : Type} (i : Instr) (s : State) (f : State → α) : Option α :=
  match exec i s with
  | .next t => some (f t)
  | .fault _ => none
  | .refused _ => none

/-! ## WellFormed refuses an operand outside its row -/

theorem test_wf_rsvdCmd4to7 : (Instr.rsvdCmd4to7 3#4).WellFormed = false ∧ (Instr.rsvdCmd4to7 8#4).WellFormed = false := by decide
theorem test_wf_rsvdCmd8to15 : (Instr.rsvdCmd8to15 7#4).WellFormed = false := by decide
theorem test_wf_misalign1 : (Instr.busErrMisalign1 false 0x008#12).WellFormed = false := by decide
theorem test_wf_misalign2 : (Instr.busErrMisalign2 true 0x009#12).WellFormed = false := by decide
theorem test_wf_misalign3 : (Instr.busErrMisalign3 false 0x00A#12).WellFormed = false := by decide
theorem test_wf_rsvd028 :
    (Instr.rdRsvd028 0x024#12).WellFormed = false ∧ (Instr.wrRsvd028 0x030#12 0#32).WellFormed = false := by decide
theorem test_wf_rsvd030 :
    (Instr.rdRsvd030 0x02C#12).WellFormed = false ∧ (Instr.wrRsvd030 0x040#12 0#32).WellFormed = false := by decide
theorem test_wf_rsvd040 :
    (Instr.rdRsvd040 0x03C#12).WellFormed = false ∧ (Instr.wrRsvd040 0x080#12 0#32).WellFormed = false := by decide
theorem test_wf_rsvd080 :
    (Instr.rdRsvd080 0x07C#12).WellFormed = false ∧ (Instr.wrRsvd080 0x100#12 0#32).WellFormed = false := by decide
theorem test_wf_rsvd100 :
    (Instr.rdRsvd100 0x0FC#12).WellFormed = false ∧ (Instr.wrRsvd100 0x200#12 0#32).WellFormed = false := by decide
theorem test_wf_rsvd200 :
    (Instr.rdRsvd200 0x1FC#12).WellFormed = false ∧ (Instr.wrRsvd200 0x400#12 0#32).WellFormed = false := by decide
theorem test_wf_rsvd400 :
    (Instr.rdRsvd400 0x3FC#12).WellFormed = false ∧ (Instr.wrRsvd400 0x800#12 0#32).WellFormed = false
    ∧ (Instr.rdRsvd400 0x402#12).WellFormed = false := by decide

/-! ## Decoding of words written out from 30_encoding.md -/

-- OP is bits [3:0] of a command word, the rest is discarded (R102, R103, V-BUS-13, V-BUS-14)
theorem test_decode_commands :
    decodeTableWord 8 0b0000 = some .nop ∧ decodeTableWord 8 0b0001 = some .resume
    ∧ decodeTableWord 8 0b0010 = some .decode ∧ decodeTableWord 8 0b0011 = some .send := by decide
theorem test_decode_reserved_commands :
    decodeTableWord 8 0b0100 = some (.rsvdCmd4to7 4#4) ∧ decodeTableWord 8 0b0111 = some (.rsvdCmd4to7 7#4)
    ∧ decodeTableWord 8 0b1000 = some (.rsvdCmd8to15 8#4) ∧ decodeTableWord 8 0b1111 = some (.rsvdCmd8to15 15#4) := by decide
theorem test_decode_long_commands :
    decodeTableWord 32 0x00000012 = some .decode ∧ decodeTableWord 32 0xFFFFFFF0 = some .nop := by decide
-- SIZE is bits [14:13], W bit [12], OFFSET bits [11:0] (R100): 00_0_000000001000 and so on (V-BUS-8, V-BUS-9, V-BUS-10)
theorem test_decode_sizes :
    decodeTableWord 16 0b00_0_000000001000 = some (.busErrSize0 false 0x008#12)
    ∧ decodeTableWord 16 0b01_1_000000010000 = some (.busErrSize1 true 0x010#12)
    ∧ decodeTableWord 16 0b11_0_000000000000 = some (.busErrSize3 false 0x000#12) := by decide
theorem test_decode_misaligned :
    decodeTableWord 16 0b10_1_000000010001 = some (.busErrMisalign1 true 0x011#12)
    ∧ decodeTableWord 16 0b10_0_000000001010 = some (.busErrMisalign2 false 0x00A#12)
    ∧ decodeTableWord 16 0b10_0_111111111111 = some (.busErrMisalign3 false 0xFFF#12) := by decide
theorem test_decode_reads :
    decodeTableWord 16 0x4000 = some .rdCaps ∧ decodeTableWord 16 0x4004 = some .rdCmd
    ∧ decodeTableWord 16 0x4008 = some .rdStatus ∧ decodeTableWord 16 0x400C = some .rdRawlen
    ∧ decodeTableWord 16 0x4010 = some .rdTxCode ∧ decodeTableWord 16 0x4014 = some .rdResProto
    ∧ decodeTableWord 16 0x4018 = some .rdResValue ∧ decodeTableWord 16 0x401C = some .rdResAddr
    ∧ decodeTableWord 16 0x4020 = some .rdResInfo := by decide
-- a write's data word stands above the descriptor's two bytes (L1-6: descriptor 0x5010, data 0x000010EF)
theorem test_decode_writes :
    decodeTableWord 48 0x000010EF5010 = some (.wrTxCode 0x10EF#32)
    ∧ decodeTableWord 48 0x000000035004 = some (.wrCmd 3#32)
    ∧ decodeTableWord 48 0xDEADBEEF5010 = some (.wrTxCode 0xDEADBEEF#32)
    ∧ decodeTableWord 16 0x5000 = some (.wrCaps 0#32) ∧ decodeTableWord 16 0x5008 = some (.wrStatus 0#32)
    ∧ decodeTableWord 16 0x500C = some (.wrRawlen 0#32) ∧ decodeTableWord 16 0x5014 = some (.wrResProto 0#32)
    ∧ decodeTableWord 16 0x5018 = some (.wrResValue 0#32) ∧ decodeTableWord 16 0x501C = some (.wrResAddr 0#32)
    ∧ decodeTableWord 16 0x5020 = some (.wrResInfo 0#32) := by decide
-- RAW[k] is at 0x800 + 4k (R112, P2, P3, V-BUS-3)
theorem test_decode_raw :
    decodeTableWord 16 0x4800 = some (.rdRaw 0#9) ∧ decodeTableWord 16 0x4908 = some (.rdRaw 66#9)
    ∧ decodeTableWord 16 0x498C = some (.rdRaw 99#9) ∧ decodeTableWord 16 0x4FFC = some (.rdRaw 511#9)
    ∧ decodeTableWord 48 0x00000001580C = some (.wrRaw 3#9 1#32) := by decide
theorem test_decode_reserved_reads :
    decodeTableWord 16 0x4024 = some .rdRsvd024 ∧ decodeTableWord 16 0x402C = some (.rdRsvd028 0x02C#12)
    ∧ decodeTableWord 16 0x4030 = some (.rdRsvd030 0x030#12) ∧ decodeTableWord 16 0x407C = some (.rdRsvd040 0x07C#12)
    ∧ decodeTableWord 16 0x4080 = some (.rdRsvd080 0x080#12) ∧ decodeTableWord 16 0x4100 = some (.rdRsvd100 0x100#12)
    ∧ decodeTableWord 16 0x43FC = some (.rdRsvd200 0x3FC#12) ∧ decodeTableWord 16 0x47FC = some (.rdRsvd400 0x7FC#12) := by
  decide
theorem test_decode_reserved_writes :
    decodeTableWord 16 0x5024 = some (.wrRsvd024 0#32) ∧ decodeTableWord 16 0x5028 = some (.wrRsvd028 0x028#12 0#32)
    ∧ decodeTableWord 16 0x503C = some (.wrRsvd030 0x03C#12 0#32)
    ∧ decodeTableWord 16 0x5040 = some (.wrRsvd040 0x040#12 0#32)
    ∧ decodeTableWord 16 0x50FC = some (.wrRsvd080 0x0FC#12 0#32)
    ∧ decodeTableWord 16 0x51FC = some (.wrRsvd100 0x1FC#12 0#32)
    ∧ decodeTableWord 16 0x5200 = some (.wrRsvd200 0x200#12 0#32)
    ∧ decodeTableWord 16 0x5400 = some (.wrRsvd400 0x400#12 0#32) := by decide
theorem test_decode_bytes :
    decodeBytes .bus [0x10#8, 0x50#8, 0xEF#8, 0x10#8, 0#8, 0#8, 7#8] = .ok (.wrTxCode 0x10EF#32, [7#8])
    ∧ decodeBytes .bus [0x08#8, 0x40#8, 7#8] = .ok (.rdStatus, [7#8])
    ∧ decodeBytes .bus [0x10#8, 0x50#8, 0xEF#8] = .error .truncated
    ∧ decodeBytes .bus [0x10#8, 0xD0#8, 0#8, 0#8, 0#8, 0#8] = .error .notADescriptor := by decide

/-! ## Host accesses (V-BUS) -/

theorem test_bus1_caps : after .rdCaps .reset (·.reads) = some [0x00320064#32] := by decide
theorem test_bus2_status : after .rdStatus .reset (·.reads) = some [0#32] := by decide
theorem test_bus4_tx_code :
    after (.wrTxCode 0x10EF#32) .reset (fun t => after .rdTxCode t (·.reads)) = some (some [0x10EF#32]) := by decide
theorem test_bus5_cmd : after .rdCmd held (·.reads) = some [0#32] := by decide
theorem test_bus6_status_write : exec (.wrStatus 0xFFFFFFFF#32) .reset = .next .reset := rfl
theorem test_bus8_byte_read : exec (.busErrSize0 false 0x008#12) .reset = .fault (.busError 0x008) := rfl
theorem test_bus9_misaligned : exec (.busErrMisalign2 false 0x00A#12) .reset = .fault (.busError 0x00A) := rfl
theorem test_bus11_reserved_command :
    after (.wrCmd 9#32) .reset (fun t => after .rdStatus t (·.reads)) = some (some [0x20#32]) := by decide
theorem test_bus12_nop : after .nop { State.reset with cmdErr := true } (·.cmdErr) = some false := by decide
theorem test_bus13_op_nibble : after (.wrCmd 0x12#32) held (·.resValid) = some true := by decide
theorem test_bus15_raw :
    after (.rdRaw 0#9) held (·.reads) = some [0xB4#32] ∧ after (.rdRaw 66#9) held (·.reads) = some [11#32]
    ∧ after (.rdRaw 67#9) held (·.reads) = some [0#32] := by decide
theorem test_p2_rawlen : after .rdRawlen held (·.reads) = some [67#32] := by decide
theorem test_p3_status : after .rdStatus overflowed (·.reads) = some [0x47#32] := by decide
theorem test_exc1_step_goes_on :
    (match step (held.withFetchWord 16 0x0008) with
      | .next t => some (t.busErrors, t.statusWord)
      | .fault _ => none
      | .refused _ => none) = some ([0x008], 0x42#32) := by decide

/-! ## Decoder (V-DEC) -/

theorem test_dec1_bands :
    inBand Params.reference 134#16 16 = false ∧ inBand Params.reference 135#16 16 = true
    ∧ inBand Params.reference 225#16 16 = true ∧ inBand Params.reference 226#16 16 = false
    ∧ inBand Params.reference 8#16 1 = false ∧ inBand Params.reference 14#16 1 = true
    ∧ inBand Params.reference 42#16 3 = true ∧ inBand Params.reference 43#16 3 = false := by decide
theorem test_dec2_threshold :
    oneCandidate Params.reference 22#16 = false ∧ oneCandidate Params.reference 23#16 = true := by decide
theorem test_dec3_spaces :
    ([8#16, 9#16, 14#16, 15#16, 22#16, 25#16, 26#16, 42#16, 43#16].map (classifySpace Params.reference))
      = [none, some false, some false, none, none, none, some true, some true, none] := by decide
theorem test_dec4_nec :
    matchNec Params.reference (necTrain 0x20DF10EF#32) = some { value := 0x20DF10EF#32, address := none, bitCount := 32#8 } := by
  decide
theorem test_dec4_registers :
    after .decode held (fun t => (t.resProto, t.resValue, t.resInfoWord, t.statusWord))
      = some (1#4, 0x20DF10EF#32, 0x020#32, 0x4A#32) := by decide
theorem test_dec5_short : (decodeTrain Params.reference [180#16, 90#16] false).protocol = .unknown := by decide
theorem test_dec5_header : (decodeTrain Params.reference ((necTrain 0x20DF10EF#32).set 0 134#16) false).protocol = .unknown := by
  decide
theorem test_dec5_longer :
    (decodeTrain Params.reference (necTrain 0x20DF10EF#32 ++ [11#16, 11#16]) false).value = 0x20DF10EF#32 := by decide
theorem test_dec6_overflow_first :
    (decodeTrain Params.reference (necTrain 0x20DF10EF#32) true).protocol = .unknown
    ∧ (decodeTrain Params.reference (necTrain 0x20DF10EF#32) true).overflow = true := by decide

/-- A format with the bit on the mark, 600 us for 0 and 1200 us for 1, a header of 2400 and 600 us, most significant bit
first, and the address the upper half of the value: made up for these tests, its bands worked out by hand at 50 us per
tick. -/
def pulseWidthFormat : MatcherFormat where
  headerMarkNs     := 2400000
  headerSpaceNs    := 600000
  zeroNs           := 600000
  oneNs            := 1200000
  midpointIsLonger := true
  slot             := fun length read =>
    if read.length + 2 = length then .stop else if read.length % 2 = 0 then .bit else .pulse [600000, 1800000]
  valuePlaces      := fun count index => [count - 1 - index]
  addressPlaces    := fun count index => if index < count / 2 then [count / 2 - 1 - index] else []
  carriesAddress   := true

/-- A train of that format with the bits 1, 1, 0, 1. -/
def pulseWidthTrain : List Ticks := [48#16, 12#16, 24#16, 12#16, 24#16, 36#16, 12#16, 12#16, 24#16]

/-- It answers the same on every train. -/
def constantMatcher (m : Match) : List Ticks → Option Match := fun _ => some m

-- R160(c), (f): a header mark of 35 ticks (1750 us) is below 1800 us, a space of 16 ticks (800 us) between the two bands
theorem test_other_out_of_tolerance :
    obeysContract Params.reference pulseWidthFormat (pulseWidthTrain.set 0 35#16) ⟨0b1101#32, none, 4#8⟩ = false
    ∧ obeysContract Params.reference pulseWidthFormat (pulseWidthTrain.set 3 16#16) ⟨0b1101#32, none, 4#8⟩ = false
    ∧ obeysContract Params.reference pulseWidthFormat [48#16] ⟨0#32, none, 0#8⟩ = false := by decide
-- R160(e), (g): the bits in another order, an address that is not theirs, and one that the protocol does not carry
theorem test_other_bit_order :
    obeysContract Params.reference pulseWidthFormat pulseWidthTrain ⟨0b1011#32, none, 4#8⟩ = false
    ∧ obeysContract Params.reference pulseWidthFormat pulseWidthTrain ⟨0b1101#32, some 0b01#32, 4#8⟩ = false
    ∧ obeysContract Params.reference { pulseWidthFormat with carriesAddress := false } pulseWidthTrain
      ⟨0b1101#32, some 0b11#32, 4#8⟩ = false := by decide
-- R160(d): the midpoint is 900 us, 18 ticks; 17 ticks lie on the side of 0 and above its band's 750 us
theorem test_other_midpoint :
    ([8#16, 9#16, 15#16, 17#16, 18#16, 30#16, 31#16].map (classifyPulse Params.reference pulseWidthFormat))
      = [none, some false, some false, none, some true, some true, none]
    ∧ classifyPulse Params.reference { pulseWidthFormat with midpointIsLonger := false } 18#16 = none := by decide

/-! ## Encoder (V-ENC) -/

theorem test_enc1_frames :
    necFrame 0x10EF#32 = 0x20DF10EF#32 ∧ necFrame 0x00020000#32 = 0x20DF0000#32 ∧ necFrame 0xDEAD0000#32 = 0xFEFF0000#32 := by
  decide
theorem test_enc2_pulses :
    (necPulses 0x20DF10EF#32).take 5
      = [⟨true, 16⟩, ⟨false, 8⟩, ⟨true, 1⟩, ⟨false, 3⟩, ⟨true, 1⟩]
    ∧ (necPulses 0x20DF10EF#32)[11]? = some ⟨false, 1⟩ ∧ (necPulses 0x20DF10EF#32)[27]? = some ⟨false, 3⟩
    ∧ (necPulses 0x20DF10EF#32)[66]? = some ⟨true, 1⟩ := by decide
theorem test_enc3_durations :
    ((necPulses 0x20DF1234#32).map Pulse.units).sum = 115 ∧ ((necPulses 0xFFFFFFFF#32).map Pulse.units).sum = 153 := by decide
theorem test_enc4_send :
    after .send { State.reset with txCode := 0x10EF#32 } (fun t => (t.txFrame, t.statusWord)) = some (0x20DF10EF#32, 0x10#32) := by
  decide
theorem test_enc4_end : after .txPulse (sending 66#7) (fun t => (t.statusWord, t.irTx, t.wireOut == necPulses 0x20DF10EF#32))
    = some (0#32, false, true) := by decide
theorem test_enc5_busy : after .send (sending 3#7) (·.statusWord) = some 0x30#32 := by decide
theorem test_tx_end : after .txEnd (sending 67#7) (fun t => (t.txBusy, t.irTx)) = some (false, false) := by decide

/-! ## Capture (V-CAP) -/

theorem test_cap2_mark : after (.sample true) .reset (fun t => (t.statusWord, t.capCnt, t.rawlen)) = some (0x01#32, 1#16, 0#16) := by
  decide
theorem test_cap3_edge :
    after (.sample false) { State.reset with capState := .receiving, capLevel := true, capCnt := 180#16 }
      (fun t => (t.buf, t.capLevel, t.capCnt)) = some ([180#16], false, 1#16) := by decide
theorem test_cap4_gap : after (.sample false) receivingSpace (fun t => (t.statusWord, t.buf)) = some (0x42#32, [3#16]) := by decide
theorem test_cap7_saturates :
    after (.sample true) { receivingMark with capCnt := 65535#16 } (·.capCnt) = some 65535#16 := by decide
theorem test_cap10_held : exec (.sample true) held = .next held := rfl
theorem test_cap12_suspended :
    after (.sample false) { receivingMark with txBusy := true } (fun t => (t.statusWord, t.capCnt)) = some (0x11#32, 5#16) := by
  decide
theorem test_cap12_discards :
    after .txPulse { sending 66#7 with capState := .receiving, buf := [180#16, 90#16], capLevel := true, capCnt := 5#16 }
      (fun t => (t.statusWord, t.rawlen)) = some (0#32, 0#16) := by decide
theorem test_cap13_kept :
    after .txPulse { sending 66#7 with capState := .frameComplete, buf := [180#16, 90#16, 11#16] } (·.rawlen) = some 3#16 := by decide
theorem test_cap14_resume : after .resume receivingMark (fun t => (t.statusWord, t.rawlen)) = some (0#32, 0#16) := by decide
theorem test_p3_overflow :
    after (.sample true) almostFull (fun t => (t.statusWord, t.rawlen)) = some (0x47#32, 100#16) := by decide

/-! ## The environment (R114, R220, R337, R343) -/

-- R114: `drive NEC frame` at the nominal counts of R153 is the pulses of `NEC(F)`, then the gap
theorem test_drive_nec :
    let units := fun _ u => if u = 16 then 180 else if u = 8 then 90 else if u = 3 then 34 else 11
    driveNec 0x20DF10EF#32 units 100
      = driveTrain true ((necTrain 0x20DF10EF#32).map BitVec.toNat) ++ drive false 100 := rfl

/-- The pending levels after one step with a turn given. -/
def levelsAfter (t : Turn) (s : State) : Option (List Level) :=
  match step { s with agenda := [t], irIn := [true, false] } with
  | .next u => some u.irIn
  | .fault _ => none
  | .refused _ => none

-- a level is for a SAMPLE step: a tick during a transmission takes none, and only a level that passes unseen is lost
theorem test_levels_of_sample_steps :
    levelsAfter .tick State.reset = some [false] ∧ levelsAfter .tick (sending 5#7) = some [true, false]
    ∧ levelsAfter .unseen (sending 5#7) = some [false] ∧ levelsAfter .unseen State.reset = some [true, false] := by decide

-- an endless stimulus is never driven, so its run is never over (R339, R343)
theorem test_run_over :
    State.reset.RunOver ∧ ¬ ({ State.reset with irTail := .hold true } : State).RunOver
    ∧ ¬ ({ State.reset with irTail := .free 0 0 } : State).RunOver := by decide

/-! ## Host software (V-HOST, L1-2, L1-5) and reset -/

/-- A line as bytes. -/
def line (cs : List Char) : List Byte := asciiBytes cs

theorem test_host_parse_hex :
    parseNumber (line ['0', 'x', '1', '0', 'E', 'F']) 16 = some 4335#32
    ∧ parseNumber (line ['1', '0', 'e', 'f']) 16 = some 0x10EF#32
    ∧ parseNumber (line ['0', 'X', '1', '0', 'e', 'f']) 16 = some 0x10EF#32
    ∧ parseNumber (line ['0', 'x', '1', '2']) 16 = some 0x12#32 := by decide
theorem test_host_parse_invalid :
    parseNumber (line ['0', 'x', '1']) 16 = none ∧ parseNumber (line ['0', 'x', '1', 'G']) 16 = none
    ∧ parseNumber (line ['0', 'x', '1', '0', '0', '0', '0', '0', '0', '0', '0']) 16 = none
    ∧ parseNumber (line ['0', 'x', '1', '0']) 10 = none ∧ parseNumber (line ['1', '0']) 8 = none
    ∧ parseNumber [] 16 = none ∧ parseNumber (line ['-', '1']) 10 = none := by decide
theorem test_host10_crlf :
    (acceptByte 16 10#8 (acceptByte 16 13#8 { HostSoftware.initial with line := helpLine }).1).1.serialOut
      = [.echo helpLine, .help] := by decide
theorem test_host11_too_long :
    (acceptByte 4 10#8 (acceptByte 4 52#8 { HostSoftware.initial with line := [49#8, 50#8, 51#8] }).1).1
      = HostSoftware.initial := by decide
theorem test_host12_transmit :
    dispatchLine (line ['0', 'x', 'a', 'b', 'c']) { HostSoftware.initial with mode := .transmit }
      = ({ HostSoftware.initial with mode := .transmit }, some 0xABC#32)
    ∧ sentCodeText 0xABC#32
      = line ['S', 'e', 'n', 't', ' ', 'c', 'o', 'd', 'e', ':', ' ', '0', 'x', 'A', 'B', 'C'] := by decide
-- V-HOST-13, the dump of the first three entries of NEC(0x20DF10EF)
theorem test_host13_report :
    (HostOut.report ⟨1#32, 0x20DF10EF#32, 0#32, 0x020#32, 3, [180#32, 90#32, 11#32]⟩ [9000, 4500, 550]).texts.take 4
      = [line ['N', 'E', 'C'], line ['2', '0', 'D', 'F', '1', '0', 'E', 'F'], line ['3', '2'],
         line ['u', 'i', 'n', 't', '1', '6', '_', 't', ' ', 'r', 'a', 'w', 'D', 'a', 't', 'a', '[', '3', ']', ' ', '=', ' ']
           ++ [0x7B#8] ++ line ['9', '0', '0', '0', ',', '4', '5', '0', '0', ',', '5', '5', '0'] ++ [0x7D#8] ++ line [';']] := by
  decide
theorem test_host8_receive_ignores :
    dispatchLine (line ['0', 'x', '1', '0', 'E', 'F']) HostSoftware.initial = (HostSoftware.initial, none) := by decide
theorem test_rst1 :
    after .rst { sending 5#7 with cmdErr := true } (fun t => (t.statusWord, t.irTx, t.txCode, t.wireOut))
      = some (0#32, false, 0#32, []) := by decide

/-! ## Witnesses: states and operands that meet the hypotheses of the obligations -/

theorem test_witness_ReservedCommands :
    (∃ t, exec .resume { overflowed with cmdErr := true } = .next t)
    ∧ (∃ t, exec .decode { held with cmdErr := true } = .next t)
    ∧ (∃ t, exec .send { State.reset with cmdErr := true } = .next t)
    ∧ ({ State.reset with cmdErr := true } : State).cmdErr = true := ⟨⟨_, rfl⟩, ⟨_, rfl⟩, ⟨_, rfl⟩, rfl⟩

theorem test_witness_CmdWrite :
    (0xFFFFFFF0#32).toNat % 16 = 0 ∧ (0x11#32).toNat % 16 = 1 ∧ (0x12#32).toNat % 16 = 2 ∧ (3#32).toNat % 16 = 3
    ∧ 4 ≤ (4#32).toNat % 16 ∧ 4 ≤ (0xFFFFFFFF#32).toNat % 16
    ∧ (0x13#32).toNat % 16 = (3#32).toNat % 16 ∧ 0x13#32 ≠ 3#32 := by decide

theorem test_witness_Decode :
    held.capState = .frameComplete ∧ overflowed.capState = .overflow ∧ State.reset.capState = .idle
    ∧ receivingMark.capState = .receiving := by decide

theorem test_witness_DecodeIsIdempotent :
    (held.capState = .frameComplete ∨ held.capState = .overflow)
    ∧ (overflowed.capState = .frameComplete ∨ overflowed.capState = .overflow)
    ∧ (∀ i ∈ [Instr.sample true, .rdStatus, .send, .txPulse, .decode], i ≠ .rst ∧ commandOp i ≠ some 1#4)
    ∧ (∃ t u, exec .decode held = .next t
      ∧ execAll [.sample true, .rdStatus, .send, .txPulse, .decode] t = .next u)
    ∧ ∃ t u, exec .decode overflowed = .next t ∧ execAll [.sample true, .send] t = .next u :=
  ⟨by decide, by decide, by decide, ⟨_, _, rfl, rfl⟩, _, _, rfl, rfl⟩

theorem test_witness_Send : State.reset.txBusy = false ∧ (sending 0#7).txBusy = true ∧ (sending 66#7).txBusy = true := by decide

theorem test_witness_Caps : ∃ t, exec .rst State.reset = .next t := ⟨_, rfl⟩

theorem test_witness_Status : overflowed.CaptureOk ∧ overflowed.capState = .overflow := by decide

theorem test_witness_RegisterReads :
    overflowed.cfg.Valid ∧ overflowed.CaptureOk ∧ overflowed.capState = .overflow := by decide

theorem test_witness_ReservedOffsets :
    (0x024 ≤ (0x024#12).toNat ∧ (0x024#12).toNat ≤ 0x7FC ∧ (0x024#12).toNat % 4 = 0)
    ∧ (0x024 ≤ (0x7FC#12).toNat ∧ (0x7FC#12).toNat ≤ 0x7FC ∧ (0x7FC#12).toNat % 4 = 0) := by decide

theorem test_witness_RawRead :
    (66#9).toNat < held.buf.length ∧ held.buf.length ≤ (67#9).toNat
    ∧ overflowed.cfg.Valid ∧ overflowed.CaptureOk ∧ overflowed.cfg.rawbuf ≤ (100#9).toNat
    ∧ overflowed.cfg.rawbuf ≤ (511#9).toNat := by decide

theorem test_witness_Reads : isRead (.rdRaw 511#9) = true ∧ isRead .rdStatus = true ∧ isRead (.rdRsvd400 0x7FC#12) = true := by
  decide

-- SIZE 1 and 3, offset 0x001 and 0xFFF, and the legal 0x000 and 0xFFC
theorem test_witness_Alignment :
    (0x3010#15).toNat / 8192 ≠ 2 ∧ (0x6000#15).toNat / 8192 ≠ 2 ∧ (0x4001#15).toNat % 4 ≠ 0 ∧ (0x4FFF#15).toNat % 4 ≠ 0
    ∧ ((0x4000#15).toNat / 8192 = 2 ∧ (0x4000#15).toNat % 4 = 0)
    ∧ ((0x5FFC#15).toNat / 8192 = 2 ∧ (0x5FFC#15).toNat % 4 = 0) := by decide

theorem test_witness_TxPulse :
    ((sending 0#7).txBusy = true ∧ (necPulses (sending 0#7).txFrame)[(sending 0#7).txIdx.toNat]? = some ⟨true, 16⟩
      ∧ (sending 0#7).txIdx.toNat < 66)
    ∧ ((necPulses (sending 65#7).txFrame)[(sending 65#7).txIdx.toNat]? = some ⟨false, 1⟩ ∧ (sending 65#7).txIdx.toNat < 66)
    ∧ ((necPulses (sending 66#7).txFrame)[(sending 66#7).txIdx.toNat]? = some ⟨true, 1⟩ ∧ (sending 66#7).txIdx.toNat = 66
      ∧ (sending 66#7).capState ≠ .receiving ∧ ({ sending 66#7 with capState := .receiving } : State).capState = .receiving) := by
  decide

theorem test_witness_TxEnd :
    (sending 67#7).txBusy = true ∧ (sending 67#7).txIdx = 67#7 ∧ (sending 67#7).capState ≠ .receiving
    ∧ ({ sending 67#7 with capState := .receiving } : State).capState = .receiving := by decide

theorem test_witness_Transmission :
    (sending 0#7).txBusy = true ∧ (sending 0#7).txIdx = 0#7 ∧ (sending 0#7).capState ≠ .receiving ∧ 0 < 67 ∧ 66 < 67 := by decide

theorem test_witness_NeverCutShort :
    after .txPulse (sending 66#7) (·.txBusy) = some false ∧ after .txEnd (sending 67#7) (·.txBusy) = some false
    ∧ after .rst (sending 5#7) (·.txBusy) = some false ∧ (sending 5#7).txBusy = true := by decide

theorem test_witness_TxWriters :
    after (.wrTxCode 5#32) State.reset (·.txCode) = some 5#32 ∧ after .rst (sending 5#7) (·.txCode) = some 0#32
    ∧ after .send State.reset (·.txFrame) = some 0x20DF0000#32 ∧ after .rst (sending 5#7) (·.txFrame) = some 0#32 := by decide

theorem test_witness_Samples :
    (State.reset.txBusy = false ∧ State.reset.capState = .idle)
    ∧ (receivingMark.txBusy = false ∧ receivingMark.capState = .receiving ∧ receivingMark.capLevel = true)
    ∧ (receivingSpace.capLevel = false ∧ receivingSpace.cfg.gapTicks ≤ min (receivingSpace.capCnt.toNat + 1) 65535)
    ∧ min (({ receivingSpace with capCnt := 98#16 } : State).capCnt.toNat + 1) 65535 < receivingSpace.cfg.gapTicks
    ∧ receivingMark.buf.length + 1 ≠ receivingMark.cfg.rawbuf
    ∧ (almostFull.txBusy = false ∧ almostFull.capState = .receiving ∧ almostFull.buf.length + 1 = almostFull.cfg.rawbuf) := by
  decide

theorem test_witness_HeldOrSuspended :
    held.capState = .frameComplete ∧ overflowed.capState = .overflow ∧ (sending 3#7).txBusy = true := by decide

theorem test_witness_NeverEndingMark :
    let s : State := { receivingMark with irTail := .hold true, agenda := [.tick, .host, .unseen, .tx] }
    s.txBusy = false ∧ s.capState = .receiving ∧ s.capLevel = true ∧ s.irIn = [] ∧ s.irTail = .hold true
    ∧ .rst ∉ s.agenda ∧ (s.script = [] ∧ s.host.pc = .off)
    ∧ ({ s with script := [HostOp.waitready, HostOp.rd .rawlen] } : State).script
      = HostOp.waitready :: [HostOp.rd .rawlen] := by decide

theorem test_witness_BufferEntries :
    after (.sample false) receivingMark (·.buf) = some [180#16, 90#16, 5#16] ∧ after .resume receivingMark (·.buf) = some []
    ∧ after .rst receivingMark (·.buf) = some []
    ∧ after .txPulse { sending 66#7 with capState := .receiving, buf := [180#16] } (·.buf) = some []
    ∧ after .txEnd { sending 67#7 with capState := .receiving, buf := [180#16] } (·.buf) = some [] := by decide

theorem test_witness_CaptureTransitions :
    after (.sample true) State.reset (·.capState) = some .receiving
    ∧ after (.sample false) receivingSpace (·.capState) = some .frameComplete
    ∧ after (.sample true) almostFull (·.capState) = some .overflow
    ∧ after .resume held (·.capState) = some .idle ∧ after .rst overflowed (·.capState) = some .idle
    ∧ after .txPulse { sending 66#7 with capState := .receiving } (·.capState) = some .idle
    ∧ after .txEnd { sending 67#7 with capState := .receiving } (·.capState) = some .idle := by decide

theorem test_witness_FlagWriters :
    after (.sample true) almostFull (·.ovf) = some true ∧ after .resume overflowed (·.ovf) = some false
    ∧ after .rst overflowed (·.ovf) = some false
    ∧ after .nop { State.reset with cmdErr := true } (·.cmdErr) = some false
    ∧ after .rst { State.reset with cmdErr := true } (·.cmdErr) = some false
    ∧ after (.rsvdCmd4to7 4#4) State.reset (·.cmdErr) = some true ∧ after .send (sending 0#7) (·.cmdErr) = some true
    ∧ after .decode held (·.resValid) = some true
    ∧ after .resume { held with resValid := true } (·.resValid) = some false
    ∧ after .decode { State.reset with resValid := true } (·.resValid) = some false := by decide

theorem test_witness_Encode :
    (Instr.rdRsvd400 0x7FC#12).WellFormed = true ∧ encode (.rdRsvd400 0x7FC#12) = some (.bus 0x47FC#15 0#32)
    ∧ (Instr.wrRaw 511#9 7#32).WellFormed = true ∧ encode (.wrRaw 511#9 7#32) = some (.bus 0x5FFC#15 7#32)
    ∧ (Instr.rsvdCmd8to15 15#4).WellFormed = true ∧ encode (.rsvdCmd8to15 15#4) = some (.cmd 15#32)
    ∧ ((0x5010#15).toNat / 4096 = 5 ∧ (0x5010#15).toNat % 4 = 0) := by decide

/-- A build whose tick divides the midpoint between the two spaces: 25 ticks of 45 us are 1125 us. -/
theorem test_witness_Spaces :
    Params.reference.tolPct ≤ 33 ∧ 2 * tickNs { Params.reference with usecPerTick := 45 } 25#16 = 4 * Config.necUnitNs
    ∧ ({ Params.reference with usecPerTick := 45, gapTicks := 105 } : Params).Valid := by decide

theorem test_witness_NecMatcher :
    67 ≤ (necTrain 0x20DF10EF#32).length ∧ ((necTrain 0x20DF10EF#32).take 66).length < 67 := by decide

theorem test_witness_DecodeOrder :
    [180#16, 90#16].length < Params.reference.minFrameLen
    ∧ Params.reference.minFrameLen ≤ (necTrain 0#32).length
    ∧ matchNec Params.reference (necTrain 0#32) = some ⟨0#32, none, 32#8⟩
    ∧ Params.reference.minFrameLen ≤ [180#16, 45#16, 11#16].length
    ∧ matchNec Params.reference [180#16, 45#16, 11#16] = none := by decide

theorem test_witness_OtherMatchers :
    obeysContract Params.reference pulseWidthFormat pulseWidthTrain ⟨0b1101#32, some 0b11#32, 4#8⟩ = true
    ∧ obeysContract Params.reference pulseWidthFormat pulseWidthTrain ⟨0b1101#32, none, 9#8⟩ = true
    ∧ matchContracted Params.reference pulseWidthFormat (constantMatcher ⟨0b1101#32, some 0b11#32, 4#8⟩) pulseWidthTrain
      = some ⟨0b1101#32, some 0b11#32, 4#8⟩
    ∧ matchContracted Params.reference pulseWidthFormat (constantMatcher ⟨0b1011#32, none, 4#8⟩) pulseWidthTrain = none
    ∧ ({ Params.reference with matchers := .family 7 } : Params).matchers = .family 7
    ∧ Params.reference.matchers = .rejectAll := by decide

/-- Lists related entry by entry, from a check on their pairs. -/
theorem forall2_of_zip {α β : Type} {R : α → β → Prop} {l : List α} {r : List β} (hl : l.length = r.length)
    (h : ∀ x ∈ l.zip r, R x.1 x.2) : List.Forall₂ R l r :=
  List.forall₂_iff_zip.mpr ⟨hl, fun hx => h _ hx⟩

theorem test_witness_Quantised :
    Params.reference.Valid ∧ RoundTripTicks Params.reference
    ∧ List.Forall₂ (fun (d : Ticks) (q : Pulse) => Quantised Params.reference d.toNat q.units)
        (necTrain 0x20DF10EF#32) (necPulses 0x20DF10EF#32) := by
  exact ⟨by decide, by decide, forall2_of_zip (by decide) (by decide)⟩

theorem test_witness_Capture :
    State.reset.cfg.Valid ∧ RoundTripTicks State.reset.cfg ∧ State.reset.CaptureOk ∧ State.reset.capState = .idle
    ∧ State.reset.txBusy = false ∧ State.reset.cfg.gapTicks ≤ 100
    ∧ List.Forall₂ (fun (d : Nat) (q : Pulse) => Quantised State.reset.cfg d q.units)
        ((necTrain 0x20DF10EF#32).map BitVec.toNat) (necPulses (necFrame 0x10EF#32)) := by
  exact ⟨by decide, by decide, by decide, by decide, by decide, by decide, forall2_of_zip (by decide) (by decide)⟩

theorem test_witness_Step :
    (State.reset.placeAccess (.read 0x008#12)).agenda = .host :: []
    ∧ (State.reset.placeAccess (.cmd 3#32)).script = HostOp.ofCode (.cmd 3#32) :: []
    ∧ decodeTableWord 16 0x4008 = some .rdStatus
    ∧ ({ State.reset with agenda := [.tick], irIn := [true] } : State).irIn = true :: [] ∧ State.reset.irIn = []
    ∧ State.reset.txBusy = false ∧ State.reset.irTail = .over
    ∧ ({ State.reset with irTail := .hold true } : State).irTail = .hold true
    ∧ ({ State.reset with irTail := .free 3 0 } : State).irTail = .free 3 0
    ∧ ({ sending 5#7 with agenda := [.tick] } : State).txBusy = true
    ∧ ({ sending 5#7 with agenda := [.unseen], irIn := [true] } : State).irIn = true :: []
    ∧ ({ sending 67#7 with agenda := [.tx] } : State).txIdx = 67#7 ∧ (sending 66#7).txIdx ≠ 67#7
    ∧ ({ State.reset with agenda := [.rst] } : State).agenda = .rst :: [] := by decide

theorem test_witness_BusError :
    ({ State.reset with agenda := [.host], script := [.access 0x3010#15 5#32] } : State).agenda = .host :: []
    ∧ ((0x3010#15).toNat / 8192 ≠ 2 ∨ (0x3010#15).toNat % 4 ≠ 0)
    ∧ ((0x400A#15).toNat / 8192 ≠ 2 ∨ (0x400A#15).toNat % 4 ≠ 0) := by decide

-- a window at 0x1000: below it, above it, its first and its last address
theorem test_witness_Bus :
    let cfg : Params := { Params.reference with ircBase := 0x1000 }
    ({ State.resetWith cfg with agenda := [.host], script := [.bus false 0xFFF 4 0#32] } : State).script
      = .bus false 0xFFF 4 0#32 :: []
    ∧ 0xFFF < cfg.ircBase ∧ cfg.ircBase + 4096 ≤ 0x2000 ∧ 0x1000 = cfg.ircBase + (0x000#12).toNat
    ∧ 0x1FFF = cfg.ircBase + (0xFFF#12).toNat := by decide

theorem test_witness_Poll :
    ({ sending 5#7 with agenda := [.host], script := [HostOp.waittx] } : State).script = HostOp.waittx :: []
    ∧ (sending 5#7).txBusy = true ∧ held.txBusy = false
    ∧ ({ held with agenda := [.host], script := [HostOp.waitready] } : State).script = HostOp.waitready :: []
    ∧ held.capState = .frameComplete ∧ State.reset.capState = .idle := by decide

theorem test_witness_ResetValid : Params.reference.Valid := by decide

theorem test_witness_Inv : State.reset.Inv ∧ ∃ t, step State.reset = .next t :=
  ⟨⟨by decide, by decide, by decide, by decide, by decide⟩, ⟨_, rfl⟩⟩

/-- A transmission in progress, five pulses out. -/
theorem test_witness_Inv_sending : (sending 5#7).Inv ∧ ∃ t, step { sending 5#7 with agenda := [.tx] } = .next t :=
  ⟨⟨by decide, by decide, by decide, by decide, by decide⟩, ⟨_, rfl⟩⟩

theorem test_witness_SendDiscipline :
    ({ sending 5#7 with host := { HostSoftware.initial with pc := .txWait 0x10EF#32 [] }, cmdErr := true } : State).SendDiscipline
    ∧ (∃ t, step { sending 5#7 with
        host := { HostSoftware.initial with pc := .txWait 0x10EF#32 [] }, cmdErr := true, agenda := [.host] } = .next t) :=
  ⟨⟨rfl, fun _ => ⟨_, _, rfl⟩⟩, ⟨_, rfl⟩⟩

theorem test_witness_Modes :
    HostSoftware.initial.mode = .receive ∧ ({ HostSoftware.initial with mode := .transmit } : HostSoftware).mode = .transmit
    ∧ line ['h'] ≠ helpLine ∧ line ['h'] ≠ modeRxLine ∧ line ['h'] ≠ modeTxLine := by decide

end Sys2Proof.Tests
end

section
/-! PROOFS. The host's bus accesses (R11, R80, R82): the host's turn as one entry of its program, the window test of
`busDescriptor`, and the refusal of every access that is not of four bytes. -/

namespace Sys2Proof.Machine

/-! ## The host's turn -/

/-- On the host's turn the step is the first entry of its program. -/
theorem step_of_host_script {s : State} {later : List Turn} {op : HostOp} {rest : List HostOp}
    (hagenda : s.agenda = .host :: later) (hscript : s.script = op :: rest) :
    step s = scriptStep op rest { s with agenda := later } := by
  have hturn : s.nextTurn = .host := by rw [State.nextTurn, hagenda]
  have hpass : s.passTurn = { s with agenda := later } := by rw [State.passTurn, hagenda]
  rw [step, hturn, hpass, runTurn, hostTurn]
  simp only [hscript]

theorem performAccess_bus (desc : Descriptor) (data : Word) (s : State) :
    performAccess (.bus desc data) s = endAccess s (exec (decodeBus desc data) s) := rfl

/-! ## The window -/

theorem busDescriptor_eq_none {cfg : Params} {addr : Nat} (write : Bool) (size : Nat)
    (h : addr < cfg.ircBase ∨ cfg.ircBase + 4096 ≤ addr) : busDescriptor cfg write addr size = none :=
  if_neg (by omega)

/-- The address of an offset lies in the window, and its descriptor is that of the offset. -/
theorem busDescriptor_ircBase_add (cfg : Params) (write : Bool) (off : Offset) (size : Nat) :
    busDescriptor cfg write (cfg.ircBase + off.toNat) size = some (Descriptor.mk (sizeCode size) write off) := by
  have hlt : off.toNat < 4096 := off.isLt
  rw [busDescriptor, if_pos (by omega), Nat.add_sub_cancel_left, BitVec.ofNat_toNat, BitVec.setWidth_eq]

theorem scriptStep_bus_outside {s : State} {addr : Nat} (write : Bool) (size : Nat) (data : Word) (rest : List HostOp)
    (h : addr < s.cfg.ircBase ∨ s.cfg.ircBase + 4096 ≤ addr) :
    scriptStep (.bus write addr size data) rest s = .fault (.outsideWindow addr) := by
  simp only [scriptStep, busDescriptor_eq_none write size h]

theorem scriptStep_bus_window (s : State) (write : Bool) (off : Offset) (size : Nat) (data : Word) (rest : List HostOp) :
    scriptStep (.bus write (s.cfg.ircBase + off.toNat) size data) rest s
      = performAccess (.bus (Descriptor.mk (sizeCode size) write off) data) { s with script := rest } := by
  simp only [scriptStep, busDescriptor_ircBase_add]

/-! ## Refused sizes -/

/-- R82, R300: an access of any size but four bytes is a bus error at its offset. -/
theorem exec_decodeBus_of_size_ne {desc : Descriptor} (data : Word) (s : State) (h : Descriptor.size desc ≠ 2#2) :
    exec (decodeBus desc data) s = busErrorAt (Descriptor.offset desc) s := by
  have hcases : ∀ size : BitVec 2, size ≠ 2#2 → size = 0#2 ∨ size = 1#2 ∨ size = 3#2 := by decide
  obtain hsize | hsize | hsize := hcases _ h
  · simp [decodeBus, hsize, exec, execBusErrSize0]
  · simp [decodeBus, hsize, exec, execBusErrSize1]
  · simp [decodeBus, hsize, exec, execBusErrSize3]

/-- A refused access adds the record of its error response and nothing else. -/
theorem performAccess_of_size_ne {desc : Descriptor} (data : Word) (s : State) (h : Descriptor.size desc ≠ 2#2) :
    performAccess (.bus desc data) s
      = .next (s.recordBusError (s.cfg.ircBase + (Descriptor.offset desc).toNat)) := by
  rw [performAccess_bus, exec_decodeBus_of_size_ne data s h, busErrorAt, endAccess]

theorem sizeCode_ne_word {size : Nat} (h : size = 1 ∨ size = 2) : sizeCode size ≠ 2#2 := by
  obtain rfl | rfl := h <;> decide

/-! ## The obligation -/

/-- Settles O54: the host's turn is its program's first entry, whose address either misses the window or is that of an
offset; there the size decides between the word access and the bus error. -/
theorem busAccessesReachTheWindow : Obligations.BusAccessesReachTheWindow := by
  intro s later write addr size data rest hagenda hscript
  rw [step_of_host_script hagenda hscript]
  refine ⟨fun hout => ?_, ?_, ?_⟩
  · exact scriptStep_bus_outside (s := { s with agenda := later }) write size data rest hout
  · rintro off rfl rfl
    exact scriptStep_bus_window { s with agenda := later } write off 4 data rest
  · rintro off rfl hsize
    have hrefused : Descriptor.size (Descriptor.mk (sizeCode size) write off) ≠ 2#2 := by
      rw [Descriptor.size_mk]
      exact sizeCode_ne_word hsize
    calc scriptStep (.bus write (s.cfg.ircBase + off.toNat) size data) rest { s with agenda := later }
        = performAccess (.bus (Descriptor.mk (sizeCode size) write off) data)
            { s with agenda := later, script := rest } :=
          scriptStep_bus_window { s with agenda := later } write off size data rest
      _ = .next { s with agenda := later, script := rest, busErrors := s.busErrors ++ [s.cfg.ircBase + off.toNat] } := by
          rw [performAccess_of_size_ne _ _ hrefused, Descriptor.offset_mk, State.recordBusError]

end Sys2Proof.Machine
end

section
/-! PROOFS. The only writers of the flags and of the transmitter's registers (R37 to R39, R42 to R44), by cases on `Effect`,
and the independence of a read from the hidden state (R51). -/

namespace Sys2Proof.Machine

/-! ## What the capture unit's moves and the end of a transmission leave unchanged -/

@[simp] theorem State.countSample_frame (s : State) :
    s.countSample.cfg = s.cfg ∧ s.countSample.buf = s.buf ∧ s.countSample.ovf = s.ovf
    ∧ s.countSample.resValid = s.resValid ∧ s.countSample.cmdErr = s.cmdErr ∧ s.countSample.txBusy = s.txBusy
    ∧ s.countSample.txCode = s.txCode ∧ s.countSample.txFrame = s.txFrame := by
  obtain ⟨-, -, h⟩ | ⟨-, h⟩ := countSample_cases s <;> simp [h]

@[simp] theorem State.recordEdge_frame (s : State) (mark : Level) :
    (s.recordEdge mark).cfg = s.cfg ∧ (s.recordEdge mark).buf = s.buf ++ [s.capCnt]
    ∧ (s.recordEdge mark).resValid = s.resValid ∧ (s.recordEdge mark).cmdErr = s.cmdErr
    ∧ (s.recordEdge mark).txBusy = s.txBusy ∧ (s.recordEdge mark).txCode = s.txCode
    ∧ (s.recordEdge mark).txFrame = s.txFrame := by
  obtain ⟨-, h⟩ | ⟨-, h⟩ := recordEdge_cases s mark <;> simp [h]

@[simp] theorem State.transmissionEnd_frame (s : State) :
    s.transmissionEnd.cfg = s.cfg ∧ s.transmissionEnd.ovf = s.ovf ∧ s.transmissionEnd.resValid = s.resValid
    ∧ s.transmissionEnd.cmdErr = s.cmdErr ∧ s.transmissionEnd.txBusy = false ∧ s.transmissionEnd.irTx = false
    ∧ s.transmissionEnd.txCode = s.txCode ∧ s.transmissionEnd.txFrame = s.txFrame := by
  obtain ⟨-, h⟩ | ⟨-, h⟩ := transmissionEnd_cases s <;> simp [h]

/-! ## The entry into Overflow -/

/-- A count never leads to Overflow. -/
theorem countSample_capState_ne_overflow {s : State} (hc : s.capState = .receiving) :
    s.countSample.capState ≠ .overflow := by
  obtain ⟨-, -, h⟩ | ⟨-, h⟩ := countSample_cases s <;> simp [h, hc]

/-- The end of a transmission never leads to Overflow. -/
theorem capState_of_transmissionEnd_overflow {s : State} (h : s.transmissionEnd.capState = .overflow) :
    s.capState = .overflow := by
  obtain ⟨-, e⟩ | ⟨-, e⟩ := transmissionEnd_cases s
  · simp [e] at h
  · simpa [e] using h

/-- After an edge `ovf` stands exactly where it stood before or the edge led to Overflow. -/
theorem recordEdge_ovf_iff {s : State} (mark : Level) (hc : s.capState = .receiving) :
    (s.recordEdge mark).ovf = true ↔ s.ovf = true ∨ (s.recordEdge mark).capState = .overflow := by
  obtain ⟨-, h⟩ | ⟨-, h⟩ := recordEdge_cases s mark <;> simp [h, hc]

section Writers
variable {i : Instr} {s t : State}

/-! ## The transmitter -/

theorem Effect.txBusy_cleared (h : Effect i s t) (hs : s.txBusy = true) (ht : t.txBusy = false) :
    i = .rst ∨ (i = .txPulse ∧ s.txIdx = 66#7) ∨ (i = .txEnd ∧ s.txIdx = 67#7) := by
  cases h with
  | lastPulse _ hi _ _ hx => exact .inr (.inl ⟨hi, hx⟩)
  | ended hi _ hx => exact .inr (.inr ⟨hi, hx⟩)
  | reset hi => exact .inl hi
  | _ => simp [hs] at ht

theorem Effect.txCode_changed (h : Effect i s t) (ht : t.txCode ≠ s.txCode) :
    i = .rst ∨ ∃ d, i = .wrTxCode d := by
  cases h with
  | storeCode d hi => exact .inr ⟨d, hi⟩
  | reset hi => exact .inl hi
  | _ => simp at ht

theorem Effect.txFrame_changed (h : Effect i s t) (ht : t.txFrame ≠ s.txFrame) :
    i = .rst ∨ (commandOp i = some 3#4 ∧ s.txBusy = false) := by
  cases h with
  | sent hi hb => exact .inr ⟨hi, hb⟩
  | reset hi => exact .inl hi
  | _ => simp at ht

/-! ## The flags -/

theorem Effect.ovf_set (h : Effect i s t) (hs : s.ovf = false) (ht : t.ovf = true) :
    t.capState = .overflow ∧ s.capState = .receiving ∧ ∃ mark, i = .sample mark := by
  cases h with
  | recorded hi _ hc =>
    have hfull := ((recordEdge_ovf_iff _ hc).mp ht).resolve_left (ne_true_of_eq_false hs)
    exact ⟨hfull, hc, _, hi⟩
  | _ => simp [hs] at ht

theorem Effect.ovf_of_overflow_entered (h : Effect i s t) (hs : s.capState ≠ .overflow) (ht : t.capState = .overflow) :
    t.ovf = true := by
  cases h with
  | recorded _ _ hc => exact (recordEdge_ovf_iff _ hc).mpr (.inr ht)
  | counted _ _ hc => exact absurd ht (countSample_capState_ne_overflow hc)
  | lastPulse => exact absurd (capState_of_transmissionEnd_overflow ht) hs
  | ended => exact absurd (capState_of_transmissionEnd_overflow ht) hs
  | _ => simp [hs] at ht

theorem Effect.ovf_cleared (h : Effect i s t) (hs : s.ovf = true) (ht : t.ovf = false) :
    i = .rst ∨ commandOp i = some 1#4 := by
  cases h with
  | resumed hi => exact .inr hi
  | reset hi => exact .inl hi
  | recorded _ _ hc => exact absurd ((recordEdge_ovf_iff _ hc).mpr (.inl hs)) (ne_true_of_eq_false ht)
  | _ => simp [hs] at ht

theorem Effect.cmdErr_cleared (h : Effect i s t) (hs : s.cmdErr = true) (ht : t.cmdErr = false) :
    i = .rst ∨ commandOp i = some 0#4 := by
  cases h with
  | clearError hi => exact .inr hi
  | reset hi => exact .inl hi
  | _ => simp [hs] at ht

theorem Effect.cmdErr_set (h : Effect i s t) (hs : s.cmdErr = false) (ht : t.cmdErr = true) :
    (∃ op, commandOp i = some op ∧ (4 ≤ op.toNat ∨ i.WellFormed = false))
    ∨ (commandOp i = some 3#4 ∧ s.txBusy = true) := by
  cases h with
  | flagReserved op hi hop => exact .inl ⟨op, hi, hop⟩
  | flagBusy hi hb => exact .inr ⟨hi, hb⟩
  | _ => simp [hs] at ht

theorem Effect.resValid_set (h : Effect i s t) (hs : s.resValid = false) (ht : t.resValid = true) :
    commandOp i = some 2#4 ∧ s.ready = true := by
  cases h with
  | decoded hi hr => exact ⟨hi, hr⟩
  | _ => simp [hs] at ht

theorem Effect.resValid_cleared (h : Effect i s t) (hs : s.resValid = true) (ht : t.resValid = false) :
    i = .rst ∨ commandOp i = some 1#4 ∨ (commandOp i = some 2#4 ∧ s.ready = false) := by
  cases h with
  | resumed hi => exact .inr (.inl hi)
  | notReady hi hr => exact .inr (.inr ⟨hi, hr⟩)
  | reset hi => exact .inl hi
  | _ => simp [hs] at ht

end Writers

/-! ## The obligations -/

/-- Settles O25: the last pulse, TX_END and RST are the effects that clear `tx_busy`. -/
theorem transmissionIsNeverCutShort : Obligations.TransmissionIsNeverCutShort :=
  fun _ _ _ h hs ht => (exec_effect h).txBusy_cleared hs ht

/-- Settles O26: one inversion for each of the two registers. -/
theorem transmitterRegistersHaveTheirOnlyWriters : Obligations.TransmitterRegistersHaveTheirOnlyWriters :=
  fun _ _ _ h => ⟨(exec_effect h).txCode_changed, (exec_effect h).txFrame_changed⟩

/-- Settles O34: the edge that fills the buffer is the only effect that sets `ovf` or enters Overflow. -/
theorem overflowFlagHasItsOnlyWriters : Obligations.OverflowFlagHasItsOnlyWriters :=
  fun _ _ _ h => ⟨(exec_effect h).ovf_set, (exec_effect h).ovf_of_overflow_entered, (exec_effect h).ovf_cleared⟩

/-- Settles O35: the effects that clear and that set `cmd_err`. -/
theorem commandErrorIsSticky : Obligations.CommandErrorIsSticky :=
  fun _ _ _ h => ⟨(exec_effect h).cmdErr_cleared, (exec_effect h).cmdErr_set⟩

/-- Settles O36: the effects that set and that clear `res_valid`. -/
theorem resultValidHasItsOnlyWriters : Obligations.ResultValidHasItsOnlyWriters :=
  fun _ _ _ h => ⟨(exec_effect h).resValid_set, (exec_effect h).resValid_cleared⟩

/-- Settles O17: the word each read answers, written out, is made of visible elements alone. -/
theorem readsDoNotRevealHiddenState : Obligations.ReadsDoNotRevealHiddenState := by
  intro i s level cnt frame idx out phase hi
  cases i
  case rdCaps => exact ⟨s.capsWord, rfl, rfl⟩
  case rdStatus => exact ⟨s.statusWord, rfl, rfl⟩
  case rdRawlen => exact ⟨s.rawlen.setWidth 32, rfl, rfl⟩
  case rdTxCode => exact ⟨s.txCode, rfl, rfl⟩
  case rdResProto => exact ⟨s.resProto.setWidth 32, rfl, rfl⟩
  case rdResValue => exact ⟨s.resValue, rfl, rfl⟩
  case rdResAddr => exact ⟨s.resAddr, rfl, rfl⟩
  case rdResInfo => exact ⟨s.resInfoWord, rfl, rfl⟩
  case rdRaw k => exact ⟨s.rawWord k, rfl, rfl⟩
  case rdCmd | rdRsvd024 | rdRsvd028 | rdRsvd030 | rdRsvd040 | rdRsvd080 | rdRsvd100 | rdRsvd200 | rdRsvd400 =>
    exact ⟨0#32, rfl, rfl⟩
  all_goals cases hi

end Sys2Proof.Machine
end

section
/-! PROOFS. Every step keeps the invariant (R37 to R39, R41, R45, R150, R158, R200): each part of it is kept by every
`Effect`, and `step_effect` carries this to the machine's step. -/

namespace Sys2Proof.Machine

/-! ## The capture unit in each of its states -/

section CaptureStates
variable {s : State}

theorem captureOk_idle_iff (hc : s.capState = .idle) : s.CaptureOk ↔ s.buf = [] ∧ s.ovf = false := by
  simp [State.CaptureOk, hc]

theorem captureOk_receiving_iff (hc : s.capState = .receiving) :
    s.CaptureOk ↔ s.buf.length < s.cfg.rawbuf ∧ s.ovf = false ∧ 1 ≤ s.capCnt.toNat
      ∧ (s.capLevel = true ↔ s.buf.length % 2 = 0) ∧ (s.capLevel = false → s.capCnt.toNat < s.cfg.gapTicks) := by
  simp [State.CaptureOk, hc]

theorem captureOk_frameComplete_iff (hc : s.capState = .frameComplete) :
    s.CaptureOk ↔ s.buf.length < s.cfg.rawbuf ∧ s.buf.length % 2 = 1 ∧ s.ovf = false := by
  simp [State.CaptureOk, hc]

theorem captureOk_overflow_iff (hc : s.capState = .overflow) :
    s.CaptureOk ↔ s.buf.length = s.cfg.rawbuf ∧ s.ovf = true := by
  simp [State.CaptureOk, hc]

/-! ## The capture unit's moves -/

/-- A space that is still being timed stays below the gap; the one that reaches it ends a frame of odd length. -/
theorem captureOk_countSample (hs : s.CaptureOk) (hc : s.capState = .receiving) : s.countSample.CaptureOk := by
  obtain ⟨hlen, hovf, hcnt, hlevel, hgap⟩ := (captureOk_receiving_iff hc).mp hs
  obtain ⟨hspace, -, h⟩ | ⟨hmore, h⟩ := countSample_cases s <;> rw [h]
  · have hodd : s.buf.length % 2 = 1 := by
      simpa [hspace] using hlevel
    exact (captureOk_frameComplete_iff rfl).mpr ⟨hlen, hodd, hovf⟩
  · have hcount : 1 ≤ (countTick s.capCnt).toNat := by
      rw [countTick_toNat]
      omega
    refine (captureOk_receiving_iff (by exact hc)).mpr ⟨hlen, hovf, hcount, hlevel, fun hspace => ?_⟩
    exact hmore.resolve_left (ne_true_of_eq_false hspace)

/-- The gap is longer than one tick (R7, R21). -/
theorem one_lt_gapTicks {p : Params} (hv : p.Valid) : 1 < p.gapTicks := by
  obtain ⟨-, -, ⟨hgap, -⟩, -⟩ := hv
  by_contra hle
  have hmul : p.gapTicks * p.usecPerTick ≤ 1 * p.usecPerTick := Nat.mul_le_mul_right _ (by omega)
  omega

/-- An edge turns the level and adds one entry, so the level still tells the parity of the buffer's length. -/
theorem captureOk_recordEdge (hv : s.cfg.Valid) (hs : s.CaptureOk) (hc : s.capState = .receiving) :
    (s.recordEdge (!s.capLevel)).CaptureOk := by
  obtain ⟨hlen, hovf, hcnt, hlevel, -⟩ := (captureOk_receiving_iff hc).mp hs
  obtain ⟨hfull, h⟩ | ⟨hfree, h⟩ := recordEdge_cases s (!s.capLevel) <;> rw [h]
  · exact (captureOk_overflow_iff rfl).mpr ⟨by simpa using hfull, rfl⟩
  · have hroom : s.buf.length + 1 < s.cfg.rawbuf := Nat.lt_of_le_of_ne hlen hfree
    have hturned : s.capLevel = false ↔ (s.buf.length + 1) % 2 = 0 := by
      rw [← Bool.not_eq_true, hlevel]
      omega
    exact (captureOk_receiving_iff (by exact hc)).mpr
      ⟨by simpa using hroom, hovf, by simp, by simpa using hturned, fun _ => one_lt_gapTicks hv⟩

theorem captureOk_transmissionEnd (hs : s.CaptureOk) : s.transmissionEnd.CaptureOk := by
  obtain ⟨hc, h⟩ | ⟨-, h⟩ := transmissionEnd_cases s <;> rw [h]
  · obtain ⟨-, hovf, -⟩ := (captureOk_receiving_iff hc).mp hs
    exact (captureOk_idle_iff rfl).mpr ⟨rfl, hovf⟩
  · exact hs

/-- The count of the pulse that an edge ends is an entry within R41. -/
theorem entriesOk_recordEdge (hs : s.EntriesOk) (hok : s.CaptureOk) (hc : s.capState = .receiving) (mark : Level) :
    (s.recordEdge mark).EntriesOk := by
  obtain ⟨-, -, hcnt, hlevel, hgap⟩ := (captureOk_receiving_iff hc).mp hok
  have hnew : s.buf.length % 2 = 1 → s.capCnt.toNat < s.cfg.gapTicks := fun hodd =>
    hgap (Bool.eq_false_iff.mpr fun hmark => by
      have := hlevel.mp hmark
      omega)
  intro k hk
  simp only [State.recordEdge_frame] at hk ⊢
  rw [List.getElem_append]
  split
  · exact hs k ‹_›
  · have hlast : k = s.buf.length := by
      rw [List.length_append, List.length_singleton] at hk
      omega
    subst hlast
    simpa using ⟨hcnt, hnew⟩

theorem entriesOk_nil (hb : s.buf = []) : s.EntriesOk := by
  intro k hk
  simp [hb] at hk

theorem entriesOk_transmissionEnd (hs : s.EntriesOk) : s.transmissionEnd.EntriesOk := by
  obtain ⟨-, h⟩ | ⟨-, h⟩ := transmissionEnd_cases s <;> rw [h]
  · exact entriesOk_nil rfl
  · exact hs

end CaptureStates

/-! ## The transmitter -/

theorem necFrame_necFrame (code : Word) : necFrame (necFrame code) = necFrame code := by
  rw [necFrame, necFrame, ← BitVec.or_assoc, BitVec.or_self]

/-- The pulses of every frame alternate, beginning with a mark (R191). -/
theorem necPulses_levels (frame : Word) :
    (necPulses frame).map Pulse.level = (List.range 67).map fun k => decide (k % 2 = 0) := rfl

theorem necPulses_length (frame : Word) : (necPulses frame).length = 67 := rfl

theorem necPulses_getElem?_level {frame : Word} {k : Nat} {p : Pulse} (h : (necPulses frame)[k]? = some p) :
    p.level = decide (k % 2 = 0) := by
  obtain ⟨hlt, -⟩ := List.getElem?_eq_some_iff.mp h
  rw [necPulses_length] at hlt
  have hk := congrArg (·[k]?) (necPulses_levels frame)
  simpa [h, List.getElem?_range hlt] using hk

/-- A pulse before the last moves on by one: the index, the level of the output, and the pulses emitted. -/
theorem txOk_emit {s : State} {p : Pulse} (hs : s.TxOk) (hb : s.txBusy = true)
    (hp : (necPulses s.txFrame)[s.txIdx.toNat]? = some p) (hx : s.txIdx ≠ 66#7) : (s.emit p).TxOk := by
  obtain ⟨hidx, -, hframe, pre, hout⟩ := hs.1 hb
  have hne : s.txIdx.toNat ≠ 66 := fun e => hx (BitVec.eq_of_toNat_eq e)
  have hnext : (s.txIdx + 1#7).toNat = s.txIdx.toNat + 1 := by bv_omega
  refine ⟨fun _ => ?_, fun hidle => by simp [hb] at hidle⟩
  simp only [State.emit_txIdx, State.emit_irTx, State.emit_txFrame, State.emit_wireOut, hnext]
  refine ⟨by omega, ?_, hframe, pre, ?_⟩
  · rw [necPulses_getElem?_level hp, decide_eq_decide]
    omega
  · rw [List.take_add_one, hp, ← hout, Option.toList_some, List.append_assoc]

theorem txOk_transmissionEnd (s : State) : s.transmissionEnd.TxOk :=
  ⟨fun hb => by simp at hb, fun _ => by simp⟩

/-! ## The result registers -/

/-- A valid result is that of the snapshot still held (R38), field by field, so that it speaks of the fields alone. -/
def State.HoldsItsResult (s : State) : Prop :=
  s.resValid = true → s.ready = true
    ∧ protocolCode (decodeTrain s.cfg s.buf s.ovf).protocol = s.resProto
    ∧ (decodeTrain s.cfg s.buf s.ovf).value = s.resValue
    ∧ (decodeTrain s.cfg s.buf s.ovf).address.getD 0#32 = s.resAddr
    ∧ (decodeTrain s.cfg s.buf s.ovf).address.isSome = s.resAddrPresent
    ∧ (decodeTrain s.cfg s.buf s.ovf).bitCount = s.resBits
    ∧ (decodeTrain s.cfg s.buf s.ovf).overflow = s.resOvf

/-- What the result registers hold by themselves (R150, R158). -/
def State.ResultRegistersOk (s : State) : Prop :=
  (s.resAddrPresent = false → s.resAddr = 0#32)
  ∧ (s.resProto = 0#4 → s.resValue = 0#32 ∧ s.resBits = 0#8 ∧ s.resAddrPresent = false)
  ∧ (s.resOvf = true → s.resProto = 0#4)

theorem resultOk_iff (s : State) : s.ResultOk ↔ s.HoldsItsResult ∧ s.ResultRegistersOk := by
  simp only [State.ResultOk, State.HoldsItsResult, State.ResultRegistersOk, writeResult_eq_self_iff]

/-- A state without a snapshot has no valid result, so whatever keeps `res_valid` holds its result. -/
theorem holdsItsResult_of_not_ready {s t : State} (hs : s.HoldsItsResult) (hr : s.ready = false)
    (ht : t.resValid = s.resValid) : t.HoldsItsResult := by
  intro hvalid
  obtain ⟨hready, -⟩ := hs (ht ▸ hvalid)
  simp [hr] at hready

theorem ready_of_idle {s : State} (hc : s.capState = .idle) : s.ready = false := by
  simp [State.ready, hc]

theorem ready_of_receiving {s : State} (hc : s.capState = .receiving) : s.ready = false := by
  simp [State.ready, hc]

theorem holdsItsResult_transmissionEnd {s : State} (hs : s.HoldsItsResult) : s.transmissionEnd.HoldsItsResult := by
  obtain ⟨hc, -⟩ | ⟨-, h⟩ := transmissionEnd_cases s
  · exact holdsItsResult_of_not_ready hs (ready_of_receiving hc) (by simp)
  · rw [h]
    exact hs

theorem resultRegistersOk_transmissionEnd {s : State} (hs : s.ResultRegistersOk) :
    s.transmissionEnd.ResultRegistersOk := by
  obtain ⟨-, h⟩ | ⟨-, h⟩ := transmissionEnd_cases s <;> rw [h] <;> exact hs

theorem protocolCode_eq_zero_iff (q : Protocol) : protocolCode q = 0#4 ↔ q = .unknown := by
  cases q with
  | unknown => decide
  | nec => decide
  | other r => cases r <;> decide

/-- The decoded signal is Unknown, or that of a protocol that has a matcher (R158). -/
theorem decodeTrain_cases (p : Params) (train : List Ticks) (ovf : Bool) :
    (∃ o, decodeTrain p train ovf = unknownSignal o)
    ∨ ∃ q m, q ≠ .unknown ∧ decodeTrain p train ovf = matchedSignal q m := by
  unfold decodeTrain
  split_ifs
  · exact .inl ⟨_, rfl⟩
  · exact .inl ⟨_, rfl⟩
  · obtain ⟨_, q, _, m, -, -, hm, h⟩ | ⟨-, h⟩ := firstMatch_cases p train (.nec :: p.matcherOrder.map .other)
    · refine .inr ⟨q, m, ?_, h⟩
      rintro rfl
      cases hm
    · exact .inl ⟨_, h⟩

/-- What a decode writes to the registers (R150, R158). -/
theorem resultRegistersOk_writeResult (s : State) (p : Params) (train : List Ticks) (ovf : Bool) :
    (s.writeResult (decodeTrain p train ovf)).ResultRegistersOk := by
  obtain ⟨o, h⟩ | ⟨q, m, hq, h⟩ := decodeTrain_cases p train ovf <;> rw [h]
  · exact ⟨fun _ => rfl, fun _ => ⟨rfl, rfl, rfl⟩, fun _ => rfl⟩
  · have hcode : protocolCode q ≠ 0#4 := fun hzero => hq ((protocolCode_eq_zero_iff q).mp hzero)
    refine ⟨fun habsent => ?_, fun hzero => absurd hzero hcode, fun hovf => by cases hovf⟩
    have hnone : m.address = none := Option.isNone_iff_eq_none.mp (Option.isSome_eq_false_iff.mp habsent)
    simp [matchedSignal, hnone]

/-! ## Each part of the invariant is kept by every effect -/

section Effects
variable {i : Instr} {s t : State}

theorem Effect.cfg_eq (h : Effect i s t) : t.cfg = s.cfg := by
  cases h <;> simp

theorem Effect.keeps_captureOk (h : Effect i s t) (hv : s.cfg.Valid) (hs : s.CaptureOk) : t.CaptureOk := by
  cases h with
  | resumed => exact (captureOk_idle_iff rfl).mpr ⟨rfl, rfl⟩
  | started _ _ hc =>
    obtain ⟨hbuf, hovf⟩ := (captureOk_idle_iff hc).mp hs
    obtain ⟨-, ⟨hraw, -⟩, -⟩ := hv
    refine (captureOk_receiving_iff rfl).mpr ⟨?_, hovf, by simp, by simp [hbuf], by simp⟩
    simp only [hbuf, List.length_nil]
    omega
  | counted _ _ hc => exact captureOk_countSample hs hc
  | recorded _ _ hc => exact captureOk_recordEdge hv hs hc
  | lastPulse p => exact captureOk_transmissionEnd (s := s.emit p) hs
  | ended => exact captureOk_transmissionEnd hs
  | reset => exact (captureOk_idle_iff rfl).mpr ⟨rfl, rfl⟩
  | _ => exact hs

theorem Effect.keeps_entriesOk (h : Effect i s t) (hok : s.CaptureOk) (hs : s.EntriesOk) : t.EntriesOk := by
  cases h with
  | resumed => exact entriesOk_nil rfl
  | counted => simpa [State.EntriesOk] using hs
  | recorded _ _ hc => exact entriesOk_recordEdge hs hok hc _
  | lastPulse p => exact entriesOk_transmissionEnd (s := s.emit p) hs
  | ended => exact entriesOk_transmissionEnd hs
  | reset => exact entriesOk_nil rfl
  | _ => exact hs

theorem Effect.keeps_txOk (h : Effect i s t) (hs : s.TxOk) : t.TxOk := by
  cases h with
  | sent _ hb =>
    have hspace : s.irTx = decide (0 % 2 = 1) := hs.2 hb
    exact ⟨fun _ => ⟨by simp, hspace, necFrame_necFrame _, by simp⟩, fun hidle => by cases hidle⟩
  | counted =>
    obtain ⟨-, -, e⟩ | ⟨-, e⟩ := countSample_cases s <;> rw [e] <;> exact hs
  | recorded =>
    obtain ⟨-, e⟩ | ⟨-, e⟩ := recordEdge_cases s (!s.capLevel) <;> rw [e] <;> exact hs
  | pulse _ _ hb hp hx => exact txOk_emit hs hb hp hx
  | lastPulse => exact txOk_transmissionEnd _
  | ended => exact txOk_transmissionEnd _
  | reset => exact ⟨(fun hb => by cases hb), fun _ => rfl⟩
  | _ => exact hs

theorem Effect.keeps_holdsItsResult (h : Effect i s t) (hs : s.HoldsItsResult) : t.HoldsItsResult := by
  cases h with
  | resumed => exact fun hvalid => by cases hvalid
  | decoded _ hr => exact fun _ => ⟨hr, rfl, rfl, rfl, rfl, rfl, rfl⟩
  | notReady => exact fun hvalid => by cases hvalid
  | started _ _ hc => exact holdsItsResult_of_not_ready hs (ready_of_idle hc) rfl
  | counted _ _ hc => exact holdsItsResult_of_not_ready hs (ready_of_receiving hc) (by simp)
  | recorded _ _ hc => exact holdsItsResult_of_not_ready hs (ready_of_receiving hc) (by simp)
  | lastPulse p => exact holdsItsResult_transmissionEnd (s := s.emit p) hs
  | ended => exact holdsItsResult_transmissionEnd hs
  | reset => exact fun hvalid => by cases hvalid
  | _ => exact hs

theorem Effect.keeps_resultRegistersOk (h : Effect i s t) (hs : s.ResultRegistersOk) : t.ResultRegistersOk := by
  cases h with
  | decoded => exact resultRegistersOk_writeResult s _ _ _
  | counted =>
    obtain ⟨-, -, e⟩ | ⟨-, e⟩ := countSample_cases s <;> rw [e] <;> exact hs
  | recorded =>
    obtain ⟨-, e⟩ | ⟨-, e⟩ := recordEdge_cases s (!s.capLevel) <;> rw [e] <;> exact hs
  | lastPulse p => exact resultRegistersOk_transmissionEnd (s := s.emit p) hs
  | ended => exact resultRegistersOk_transmissionEnd hs
  | reset => exact ⟨fun _ => rfl, fun _ => ⟨rfl, rfl, rfl⟩, fun h => by cases h⟩
  | _ => exact hs

theorem Effect.keeps_inv (h : Effect i s t) (hs : s.Inv) : t.Inv := by
  obtain ⟨hv, hcap, hbuf, htx, hres⟩ := hs
  obtain ⟨hheld, hregs⟩ := (resultOk_iff s).mp hres
  exact ⟨h.cfg_eq ▸ hv, h.keeps_captureOk hv hcap, h.keeps_entriesOk hcap hbuf, h.keeps_txOk htx,
    (resultOk_iff t).mpr ⟨h.keeps_holdsItsResult hheld, h.keeps_resultRegistersOk hregs⟩⟩

end Effects

/-! ## The obligation -/

/-- Settles O57: the step's effect on the block is that of one instruction, and the invariant speaks of the
block alone. -/
theorem stepKeepsTheInvariant : Obligations.StepKeepsTheInvariant := by
  intro s t hs h
  obtain ⟨i, u, v, hu, hv, he⟩ := step_effect h
  have hInv : u.Inv := (inv_block u).mp (hu ▸ (inv_block s).mpr hs)
  exact (inv_block t).mp (hv ▸ (inv_block v).mpr (he.keeps_inv hInv))

end Sys2Proof.Machine
end

section
/-! PROOFS. SIZE and alignment on a descriptor's number (R82), and the bytes of an access and of a command word (R83, R111):
the lanes of a word and the two bytes of a descriptor give them back, and a read's meaning has no part in a data word. -/

namespace Sys2Proof

/-! ## Fields -/

theorem Descriptor.size_eq_word_iff (desc : Descriptor) : Descriptor.size desc = 2#2 ↔ desc.toNat / 8192 = 2 := by
  rw [← BitVec.toNat_inj, Descriptor.toNat_size]
  rfl

theorem Descriptor.align_eq_zero_iff (desc : Descriptor) :
    Offset.align (Descriptor.offset desc) = 0#2 ↔ desc.toNat % 4 = 0 := by
  rw [← BitVec.toNat_inj, Offset.toNat_align, Descriptor.toNat_offset, Nat.mod_mod_of_dvd _ (by decide)]
  rfl

/-! ## Lanes -/

/-- R83: the four lanes of a word give it back. -/
theorem Word.ofLanes_lanes (w : Word) :
    Word.ofLanes (w.extractLsb' 0 8) (w.extractLsb' 8 8) (w.extractLsb' 16 8) (w.extractLsb' 24 8) = w :=
  calc w.extractLsb' 24 8 ++ w.extractLsb' 16 8 ++ w.extractLsb' 8 8 ++ w.extractLsb' 0 8
      = w.extractLsb' 16 16 ++ w.extractLsb' 8 8 ++ w.extractLsb' 0 8 :=
        congrArg (· ++ _ ++ _) (BitVec.extractLsb'_append_extractLsb'_eq_extractLsb' rfl)
    _ = w.extractLsb' 8 24 ++ w.extractLsb' 0 8 :=
        congrArg (· ++ _) (BitVec.extractLsb'_append_extractLsb'_eq_extractLsb' rfl)
    _ = w := BitVec.extractLsb'_append_extractLsb' (w := 24)

/-- The two bytes of a half word give it back. -/
theorem append_bytes (half : BitVec 16) : half.extractLsb' 8 8 ++ half.extractLsb' 0 8 = half :=
  BitVec.extractLsb'_append_extractLsb' (w := 8)

/-- A descriptor is the low 15 bits of its half word (R100). -/
theorem Descriptor.extractLsb'_setWidth (desc : Descriptor) : (desc.setWidth 16).extractLsb' 0 15 = desc := by
  rw [BitVec.extractLsb'_setWidth_of_le (by decide), BitVec.extractLsb'_eq_self]

/-! ## The decoder on the bytes of a code -/

/-- A read's meaning does not depend on a data word (R111). -/
theorem decodeBus_eq_of_read {desc : Descriptor} (hread : Descriptor.write desc = false) (data data' : Word) :
    decodeBus desc data = decodeBus desc data' := by
  simp [decodeBus, hread]

theorem decodeBytes_cmd (word : Word) (rest : List Byte) :
    decodeBytes .cmd ((Code.cmd word).bytes ++ rest) = .ok (decodeCmd word, rest) := by
  simp [Code.bytes, Word.lanes, decodeBytes, Word.ofLanes_lanes]

theorem decodeBytes_bus (desc : Descriptor) (data : Word) (rest : List Byte) :
    decodeBytes .bus ((Code.bus desc data).bytes ++ rest) = .ok (decodeBus desc data, rest) := by
  have hdesc := Descriptor.extractLsb'_setWidth desc
  cases hwrite : Descriptor.write desc
  case false =>
    have hdata : decodeBus desc 0#32 = decodeBus desc data := decodeBus_eq_of_read hwrite 0#32 data
    simp [Code.bytes, decodeBytes, append_bytes, hdesc, hwrite, hdata]
  case true =>
    simp [Code.bytes, decodeBytes, append_bytes, hdesc, hwrite, Word.lanes, Word.ofLanes_lanes]

/-! ## The obligation -/

/-- Settles O42: a command word by its four lanes; an access by its descriptor's two bytes and, for a write, the lanes of its
data. That layout is the model's choice (log 13). -/
theorem bytesOfACodeDecode : Obligations.BytesOfACodeDecode
  | .bus desc data, rest => decodeBytes_bus desc data rest
  | .cmd word, rest => decodeBytes_cmd word rest

/-- The decoder's answer on a table word is the meaning of its code. -/
theorem decodeTableWord_eq (nbits w : Nat) : decodeTableWord nbits w = some (decode (tableCode nbits w)) := by
  have hbytes := bytesOfACodeDecode (tableCode nbits w) []
  rw [List.append_nil] at hbytes
  rw [decodeTableWord, hbytes]

end Sys2Proof
end

section
/-! PROOFS. What a read answers, and which accesses complete (R82, R85, R133): every read appends a word that does not depend
on the answers before it, every legal write goes on, and everything else is a bus error. -/

namespace Sys2Proof.Machine

/-! ## Reads -/

/-- The word a read is answered with (R134 to R138, R140, R142, R143). -/
def State.answer (s : State) : Instr → Word
  | .rdCaps => s.capsWord
  | .rdStatus => s.statusWord
  | .rdRawlen => s.rawlen.setWidth 32
  | .rdTxCode => s.txCode
  | .rdResProto => s.resProto.setWidth 32
  | .rdResValue => s.resValue
  | .rdResAddr => s.resAddr
  | .rdResInfo => s.resInfoWord
  | .rdRaw k => s.rawWord k
  | _ => 0#32

theorem exec_of_isRead {i : Instr} (hi : isRead i = true) (s : State) : exec i s = .next (s.respond (s.answer i)) := by
  cases i
  case rdCaps | rdCmd | rdStatus | rdRawlen | rdTxCode | rdResProto | rdResValue | rdResAddr | rdResInfo | rdRaw
      | rdRsvd024 | rdRsvd028 | rdRsvd030 | rdRsvd040 | rdRsvd080 | rdRsvd100 | rdRsvd200 | rdRsvd400 => rfl
  all_goals cases hi

/-- A word once answered is no part of a later answer (R85). -/
@[simp] theorem State.answer_respond (s : State) (w : Word) (i : Instr) : (s.respond w).answer i = s.answer i := by
  cases i <;> rfl

/-- Settles O16: the word is the read's answer, which the log of answers has no part in. -/
theorem readsHaveNoSideEffect : Obligations.ReadsHaveNoSideEffect := by
  intro i s hi
  refine ⟨s.answer i, exec_of_isRead hi s, ?_⟩
  have hagain := exec_of_isRead hi (s.respond (s.answer i))
  rwa [State.answer_respond] at hagain

/-! ## Legal accesses complete -/

/-- The register map gives every legal read an instruction that reads (R101, R143). -/
theorem isRead_decodeRead (off : Offset) : isRead (decodeRead off) = true := by
  -- `isRead` is pushed to the leaves of the map, and holds at each of them
  simp only [decodeRead, apply_ite isRead]
  simp only [isRead, ite_self]

theorem execSend_completes (s : State) : ∃ t, execSend s = .next t := by
  unfold execSend
  split <;> exact ⟨_, rfl⟩

theorem execDecode_completes (s : State) : ∃ t, execDecode s = .next t := by
  unfold execDecode
  split <;> exact ⟨_, rfl⟩

/-- Every command completes, the reserved ones too (R130, R132). -/
theorem exec_decodeCmd_completes (word : Word) (s : State) : ∃ t, exec (decodeCmd word) s = .next t := by
  unfold decodeCmd
  simp only
  split_ifs
  · exact ⟨_, rfl⟩
  · exact ⟨_, rfl⟩
  · exact execDecode_completes s
  · exact execSend_completes s
  · exact ⟨_, rfl⟩
  · exact ⟨_, rfl⟩

theorem exec_wrCmd (data : Word) (s : State) : exec (.wrCmd data) s = exec (decodeCmd data) s := execWrCmd_eq data s

/-- The writes that no rule gives an effect (R141, R143). -/
def isIgnoredWrite : Instr → Bool
  | .wrCaps _ | .wrStatus _ | .wrRawlen _ | .wrResProto _ | .wrResValue _ | .wrResAddr _ | .wrResInfo _ | .wrRaw _ _
  | .wrRsvd024 _ | .wrRsvd028 _ _ | .wrRsvd030 _ _ | .wrRsvd040 _ _ | .wrRsvd080 _ _ | .wrRsvd100 _ _
  | .wrRsvd200 _ _ | .wrRsvd400 _ _ => true
  | _ => false

theorem exec_of_isIgnoredWrite {i : Instr} (hi : isIgnoredWrite i = true) (s : State) : exec i s = .next s := by
  cases i
  case wrCaps | wrStatus | wrRawlen | wrResProto | wrResValue | wrResAddr | wrResInfo | wrRaw | wrRsvd024 | wrRsvd028
      | wrRsvd030 | wrRsvd040 | wrRsvd080 | wrRsvd100 | wrRsvd200 | wrRsvd400 => rfl
  all_goals cases hi

/-- The register map gives a legal write a command at CMD, a store at TX_CODE, and an ignored write everywhere else. -/
theorem decodeWrite_cases (off : Offset) (data : Word) :
    decodeWrite off data = .wrCmd data ∨ decodeWrite off data = .wrTxCode data
    ∨ isIgnoredWrite (decodeWrite off data) = true := by
  by_cases hcmd : off = 0x004#12
  · subst hcmd
    exact .inl rfl
  by_cases htx : off = 0x010#12
  · subst htx
    exact .inr (.inl rfl)
  · right; right
    -- away from CMD and TX_CODE every leaf of the map is an ignored write
    simp only [decodeWrite, hcmd, htx, if_false, apply_ite isIgnoredWrite]
    simp only [isIgnoredWrite, ite_self]

/-- Every legal write completes (R130, R139, R141, R143). -/
theorem exec_decodeWrite_completes (off : Offset) (data : Word) (s : State) :
    ∃ t, exec (decodeWrite off data) s = .next t := by
  obtain hcmd | htx | hignored := decodeWrite_cases off data
  · rw [hcmd, exec_wrCmd]
    exact exec_decodeCmd_completes data s
  · rw [htx]
    exact ⟨_, rfl⟩
  · exact ⟨s, exec_of_isIgnoredWrite hignored s⟩

/-- A word access at an aligned offset completes, whatever its direction. -/
theorem exec_wordAccess_completes (write : Bool) {off : Offset} (data : Word) (s : State) (h : off.toNat % 4 = 0) :
    ∃ t, exec (decodeBus (Descriptor.wordAccess write off) data) s = .next t := by
  rw [decodeBus_wordAccess write off data h]
  cases write
  case false => exact ⟨_, exec_of_isRead (isRead_decodeRead off) s⟩
  case true => exact exec_decodeWrite_completes off data s

/-! ## Every other access is refused -/

/-- R82, R300: an access at an offset that is no multiple of 4 is a bus error at its offset, whatever its size. -/
theorem exec_decodeBus_of_align_ne {desc : Descriptor} (data : Word) (s : State)
    (h : Offset.align (Descriptor.offset desc) ≠ 0#2) :
    exec (decodeBus desc data) s = busErrorAt (Descriptor.offset desc) s := by
  obtain hsize | hsize := ne_or_eq (Descriptor.size desc) 2#2
  · exact exec_decodeBus_of_size_ne data s hsize
  · have hcases : ∀ align : BitVec 2, align ≠ 0#2 → align = 1#2 ∨ align = 2#2 ∨ align = 3#2 := by decide
    obtain halign | halign | halign := hcases _ h
    · simp [decodeBus, hsize, halign, exec, execBusErrMisalign1]
    · simp [decodeBus, hsize, halign, exec, execBusErrMisalign2]
    · simp [decodeBus, hsize, halign, exec, execBusErrMisalign3]

/-- R300: what a refused access is answered with, on the descriptor's number. -/
theorem exec_decodeBus_refused {desc : Descriptor} (data : Word) (s : State)
    (h : desc.toNat / 8192 ≠ 2 ∨ desc.toNat % 4 ≠ 0) :
    exec (decodeBus desc data) s = .fault (.busError (s.cfg.ircBase + desc.toNat % 4096)) := by
  have hfault : exec (decodeBus desc data) s = busErrorAt (Descriptor.offset desc) s := by
    obtain hsize | halign := h
    · exact exec_decodeBus_of_size_ne data s (mt (Descriptor.size_eq_word_iff desc).mp hsize)
    · exact exec_decodeBus_of_align_ne data s (mt (Descriptor.align_eq_zero_iff desc).mp halign)
  rw [hfault, busErrorAt, Descriptor.toNat_offset]

/-- Settles O19: a refused size or alignment is a bus error; a legal access is a word access at its own offset, which
completes. -/
theorem onlyAlignedWordAccessesComplete : Obligations.OnlyAlignedWordAccessesComplete := by
  intro desc data s
  refine ⟨exec_decodeBus_refused data s, fun hsize halign => ?_⟩
  have hword : Descriptor.wordAccess (Descriptor.write desc) (Descriptor.offset desc) = desc := by
    rw [Descriptor.wordAccess, ← (Descriptor.size_eq_word_iff desc).mpr hsize, Descriptor.mk_fields]
  have hoff : (Descriptor.offset desc).toNat % 4 = 0 := by
    rw [Descriptor.toNat_offset]
    omega
  rw [← hword]
  exact exec_wordAccess_completes _ data s hoff

end Sys2Proof.Machine
end

section
/-! PROOFS. One step as the move its turn names (R86, R306; log 5, 16), and the step after an access was placed (log 6). -/

namespace Sys2Proof.Machine

/-! ## The turn -/

/-- The head of the agenda names the agent that moves, and is used up. -/
theorem step_of_agenda {s : State} {turn : Turn} {later : List Turn} (hagenda : s.agenda = turn :: later) :
    step s = runTurn turn { s with agenda := later } := by
  have hturn : s.nextTurn = turn := by rw [State.nextTurn, hagenda]
  have hpass : s.passTurn = { s with agenda := later } := by rw [State.passTurn, hagenda]
  rw [step, hturn, hpass]

/-- The entry that makes the access of a code performs it, with the rest of the program left (R112). -/
theorem scriptStep_ofCode (c : Code) (rest : List HostOp) (s : State) :
    scriptStep (HostOp.ofCode c) rest s = performAccess c { s with script := rest } := by
  cases c <;> rfl

/-! ## The environment's next level -/

theorem nextLevel_of_pending {s : State} {mark : Level} {rest : List Level} (hin : s.irIn = mark :: rest) :
    s.nextLevel = (mark, { s with irIn := rest }) := by
  simp [State.nextLevel, hin]

theorem nextLevel_of_over {s : State} (hin : s.irIn = []) (htail : s.irTail = .over) : s.nextLevel = (false, s) := by
  simp [State.nextLevel, hin, htail]

theorem nextLevel_of_hold {s : State} {mark : Level} (hin : s.irIn = []) (htail : s.irTail = .hold mark) :
    s.nextLevel = (mark, s) := by
  simp [State.nextLevel, hin, htail]

theorem nextLevel_of_free {s : State} {source n : Nat} (hin : s.irIn = []) (htail : s.irTail = .free source n) :
    s.nextLevel = (Config.irSource source n, { s with irTail := .free source (n + 1) }) := by
  simp [State.nextLevel, hin, htail]

/-! ## The turns -/

section Turns
variable {s : State} {later : List Turn}

/-- R220, R222: a tick outside a transmission is a SAMPLE of the environment's next level. -/
theorem step_of_tick {mark : Level} {u : State} (hagenda : s.agenda = .tick :: later) (hbusy : s.txBusy = false)
    (hlevel : State.nextLevel { s with agenda := later } = (mark, u)) : step s = exec (.sample mark) u := by
  rw [step_of_agenda hagenda, runTurn, tickTurn, hlevel]
  exact if_neg (ne_true_of_eq_false hbusy)

/-- R220, R228: a tick during a transmission uses up its turn alone. -/
theorem step_of_tick_busy (hagenda : s.agenda = .tick :: later) (hbusy : s.txBusy = true) :
    step s = .next { s with agenda := later } := by
  rw [step_of_agenda hagenda, runTurn, tickTurn]
  exact if_pos hbusy

/-- R337: a pending level passes unseen during a transmission, and is kept for a SAMPLE otherwise. -/
theorem step_of_unseen {mark : Level} {rest : List Level} (hagenda : s.agenda = .unseen :: later)
    (hin : s.irIn = mark :: rest) :
    step s = .next { s with agenda := later, irIn := if s.txBusy = true then rest else s.irIn } := by
  have hlevel : State.nextLevel { s with agenda := later } = (mark, { s with agenda := later, irIn := rest }) :=
    nextLevel_of_pending hin
  rw [step_of_agenda hagenda, runTurn, unseenTurn, hlevel]
  cases hbusy : s.txBusy <;> rfl

/-- R198, R199: the transmitter's move is TX_END at index 67 and TX_PULSE everywhere else (log 14). -/
theorem step_of_tx (hagenda : s.agenda = .tx :: later) :
    step s = exec (if s.txIdx = 67#7 then .txEnd else .txPulse) { s with agenda := later } := by
  rw [step_of_agenda hagenda, runTurn, txTurn]
  split <;> rfl

end Turns

/-! ## The obligations -/

/-- Settles O51: the turn at the head of the agenda names the move; on a tick the environment's pending levels and what
follows them name the level. -/
theorem stepRunsTheDecodedInstruction : Obligations.StepRunsTheDecodedInstruction := by
  intro s later
  refine ⟨?host, ?pending, ?space, ?held, ?drawn, step_of_tick_busy, ?unseen, ?pulse, ?txEnd, step_of_agenda⟩
  case host =>
    intro c rest hagenda hscript
    rw [step_of_host_script hagenda hscript, scriptStep_ofCode, performAccess]
  case pending => exact fun _ _ hagenda hbusy hin => step_of_tick hagenda hbusy (nextLevel_of_pending hin)
  case space => exact fun hagenda hbusy hin htail => step_of_tick hagenda hbusy (nextLevel_of_over hin htail)
  case held => exact fun _ hagenda hbusy hin htail => step_of_tick hagenda hbusy (nextLevel_of_hold hin htail)
  case drawn => exact fun _ _ hagenda hbusy hin htail => step_of_tick hagenda hbusy (nextLevel_of_free hin htail)
  case unseen => exact fun _ _ hagenda hin => step_of_unseen hagenda hin
  case pulse =>
    intro hagenda hidx
    rw [step_of_tx hagenda, if_neg hidx]
  case txEnd =>
    intro hagenda hidx
    rw [step_of_tx hagenda, if_pos hidx]

/-- Settles O52: the placed access is the host's next turn and the first entry of its program; taking both away leaves the
state in which it was placed (log 6). -/
theorem placedWordIsPerformedNext : Obligations.PlacedWordIsPerformedNext := by
  intro s nbits w i hdecode
  have hi : decode (tableCode nbits w) = i := by
    rw [decodeTableWord_eq] at hdecode
    exact Option.some.inj hdecode
  rw [← hi]
  exact (stepRunsTheDecodedInstruction (s.withFetchWord nbits w) s.agenda).1 (tableCode nbits w) s.script rfl rfl

end Sys2Proof.Machine
end

section
/-! PROOFS. The places of the register window (R101, R143): the register map both ways, from an aligned offset to the
register, RAW word or reserved block it names and back, and the word accesses made to a place. -/

namespace Sys2Proof

/-! ## Offsets under the masks of the table -/

/-- Under a mask of all bits from `n` up and of bits 0 and 1, an offset keeps its block of size `2 ^ n` and its alignment. -/
theorem Offset.toNat_and_blockMask {mask : Offset} {n : Nat} (off : Offset) (hn2 : 2 ≤ n) (hn12 : n ≤ 12)
    (hblock : mask.toNat / 2 ^ n = 2 ^ (12 - n) - 1) (halign : mask.toNat % 2 ^ n = 2 ^ 2 - 1) :
    (off &&& mask).toNat = 2 ^ n * (off.toNat / 2 ^ n) + off.toNat % 4 := by
  have hlt : off.toNat / 2 ^ n < 2 ^ (12 - n) :=
    Nat.div_lt_of_lt_mul (by rw [← Nat.pow_add, Nat.add_sub_cancel' hn12]; exact off.isLt)
  have hhigh : (off.toNat &&& mask.toNat) / 2 ^ n = off.toNat / 2 ^ n := by
    rw [Nat.and_div_two_pow, hblock, Nat.and_two_pow_sub_one_eq_mod, Nat.mod_eq_of_lt hlt]
  have hlow : (off.toNat &&& mask.toNat) % 2 ^ n = off.toNat % 4 := by
    rw [Nat.and_mod_two_pow, halign, Nat.and_two_pow_sub_one_eq_mod, Nat.mod_mod_of_dvd _ (Nat.pow_dvd_pow 2 hn2)]
  rw [BitVec.toNat_and, ← Nat.div_add_mod (off.toNat &&& mask.toNat) (2 ^ n), hhigh, hlow]

/-- A misaligned offset's row is its alignment (R82). -/
theorem Offset.fits_align_iff (off value : Offset) : off.fits 0x003#12 value = true ↔ off.toNat % 4 = value.toNat := by
  rw [Offset.fits, beq_iff_eq, ← BitVec.toNat_inj, BitVec.toNat_and, show (0x003#12).toNat = 2 ^ 2 - 1 from rfl,
    Nat.and_two_pow_sub_one_eq_mod]

/-! ## The places of the register window -/

/-- The reserved blocks of R143 that hold more than one word, named by their first offset. -/
inductive ReservedBlock where
  | at028 | at030 | at040 | at080 | at100 | at200 | at400

namespace ReservedBlock

/-- The first offset of a block. -/
def base : ReservedBlock → Offset
  | at028 => 0x028#12
  | at030 => 0x030#12
  | at040 => 0x040#12
  | at080 => 0x080#12
  | at100 => 0x100#12
  | at200 => 0x200#12
  | at400 => 0x400#12

/-- A block is `2 ^ bits` bytes long. -/
def bits : ReservedBlock → Nat
  | at028 => 3
  | at030 => 4
  | at040 => 6
  | at080 => 7
  | at100 => 8
  | at200 => 9
  | at400 => 10

/-- The bits of OFFSET that the block's row fixes. -/
def mask : ReservedBlock → Offset
  | at028 => 0xFFB#12
  | at030 => 0xFF3#12
  | at040 => 0xFC3#12
  | at080 => 0xF83#12
  | at100 => 0xF03#12
  | at200 => 0xE03#12
  | at400 => 0xC03#12

/-- The block's row holds the aligned offsets of its range. -/
theorem fits_iff (b : ReservedBlock) (off : Offset) :
    off.fits b.mask b.base = true
      ↔ b.base.toNat ≤ off.toNat ∧ off.toNat < b.base.toNat + 2 ^ b.bits ∧ off.toNat % 4 = 0 := by
  have hmask : (off &&& b.mask).toNat = 2 ^ b.bits * (off.toNat / 2 ^ b.bits) + off.toNat % 4 := by
    apply Offset.toNat_and_blockMask <;> cases b <;> decide
  rw [Offset.fits, beq_iff_eq, ← BitVec.toNat_inj, hmask]
  cases b <;> simp only [base, bits, BitVec.toNat_ofNat] <;> omega

end ReservedBlock

/-- What an aligned offset of the window names: a register, a word of RAW, or a reserved place (R101, R143). -/
inductive Place where
  | reg (r : Machine.Reg)
  | raw (k : BitVec 9)
  | rsvd024
  | block (b : ReservedBlock) (off : Offset)

namespace Place

/-- The offset of a place (R101). -/
def offset : Place → Offset
  | reg r => r.offset
  | raw k => Offset.ofRaw k
  | rsvd024 => 0x024#12
  | block _ off => off

/-- The offset of a reserved place lies in its block's row. -/
def WellFormed : Place → Bool
  | block b off => off.fits b.mask b.base
  | _ => true

/-- The read of a place. -/
def read : Place → Instr
  | reg .caps => .rdCaps
  | reg .cmd => .rdCmd
  | reg .status => .rdStatus
  | reg .rawlen => .rdRawlen
  | reg .txCode => .rdTxCode
  | reg .resProto => .rdResProto
  | reg .resValue => .rdResValue
  | reg .resAddr => .rdResAddr
  | reg .resInfo => .rdResInfo
  | raw k => .rdRaw k
  | rsvd024 => .rdRsvd024
  | block .at028 off => .rdRsvd028 off
  | block .at030 off => .rdRsvd030 off
  | block .at040 off => .rdRsvd040 off
  | block .at080 off => .rdRsvd080 off
  | block .at100 off => .rdRsvd100 off
  | block .at200 off => .rdRsvd200 off
  | block .at400 off => .rdRsvd400 off

/-- The write of `data` to a place. -/
def write (data : Word) : Place → Instr
  | reg .caps => .wrCaps data
  | reg .cmd => .wrCmd data
  | reg .status => .wrStatus data
  | reg .rawlen => .wrRawlen data
  | reg .txCode => .wrTxCode data
  | reg .resProto => .wrResProto data
  | reg .resValue => .wrResValue data
  | reg .resAddr => .wrResAddr data
  | reg .resInfo => .wrResInfo data
  | raw k => .wrRaw k data
  | rsvd024 => .wrRsvd024 data
  | block .at028 off => .wrRsvd028 off data
  | block .at030 off => .wrRsvd030 off data
  | block .at040 off => .wrRsvd040 off data
  | block .at080 off => .wrRsvd080 off data
  | block .at100 off => .wrRsvd100 off data
  | block .at200 off => .wrRsvd200 off data
  | block .at400 off => .wrRsvd400 off data

/-- The register map: the place an aligned offset names. -/
def ofOffset (off : Offset) : Place :=
  if 0x800 ≤ off.toNat then raw (Offset.rawIndex off)
  else if 0x400 ≤ off.toNat then block .at400 off
  else if 0x200 ≤ off.toNat then block .at200 off
  else if 0x100 ≤ off.toNat then block .at100 off
  else if 0x080 ≤ off.toNat then block .at080 off
  else if 0x040 ≤ off.toNat then block .at040 off
  else if 0x030 ≤ off.toNat then block .at030 off
  else if 0x028 ≤ off.toNat then block .at028 off
  else if off = 0x024#12 then rsvd024
  else if off = 0x020#12 then reg .resInfo
  else if off = 0x01C#12 then reg .resAddr
  else if off = 0x018#12 then reg .resValue
  else if off = 0x014#12 then reg .resProto
  else if off = 0x010#12 then reg .txCode
  else if off = 0x00C#12 then reg .rawlen
  else if off = 0x008#12 then reg .status
  else if off = 0x004#12 then reg .cmd
  else reg .caps

/-- The model's decoder of reads is the register map. -/
theorem decodeRead_eq (off : Offset) : decodeRead off = (ofOffset off).read := by
  simp only [decodeRead, ofOffset, Offset.bit11, BitVec.le_def, decide_eq_true_eq, BitVec.toNat_ofNat, apply_ite read]
  rfl

/-- The model's decoder of writes is the register map. -/
theorem decodeWrite_eq (off : Offset) (data : Word) : decodeWrite off data = (ofOffset off).write data := by
  simp only [decodeWrite, ofOffset, Offset.bit11, BitVec.le_def, decide_eq_true_eq, BitVec.toNat_ofNat,
    apply_ite (write data)]
  rfl

@[simp] theorem wellFormed_read (p : Place) : p.read.WellFormed = p.WellFormed := by
  cases p with
  | reg r => cases r <;> rfl
  | block b off => cases b <;> rfl
  | raw k | rsvd024 => rfl

@[simp] theorem wellFormed_write (p : Place) (data : Word) : (p.write data).WellFormed = p.WellFormed := by
  cases p with
  | reg r => cases r <;> rfl
  | block b off => cases b <;> rfl
  | raw k | rsvd024 => rfl

/-- R112: a read is a word access at its place's offset. -/
@[simp] theorem encode_read (p : Place) : encode p.read = some (.read p.offset) := by
  cases p with
  | reg r => cases r <;> rfl
  | block b off => cases b <;> rfl
  | raw k | rsvd024 => rfl

/-- R112: a write is a word access at its place's offset. -/
@[simp] theorem encode_write (p : Place) (data : Word) : encode (p.write data) = some (.write p.offset data) := by
  cases p with
  | reg r => cases r <;> rfl
  | block b off => cases b <;> rfl
  | raw k | rsvd024 => rfl

/-- The register map sends a block's range to the block. -/
theorem ofOffset_of_range (b : ReservedBlock) (off : Offset) (hlo : b.base.toNat ≤ off.toNat)
    (hhi : off.toNat < b.base.toNat + 2 ^ b.bits) : ofOffset off = block b off := by
  cases b <;> simp only [ReservedBlock.base, ReservedBlock.bits, BitVec.toNat_ofNat] at hlo hhi <;>
    simp (disch := omega) only [ofOffset, if_pos, if_neg]

/-- The offset of a well-formed place names it. -/
theorem ofOffset_offset (p : Place) (hp : p.WellFormed = true) : ofOffset p.offset = p := by
  cases p with
  | reg r => cases r <;> rfl
  | raw k =>
    have hraw : 0x800 ≤ (Offset.ofRaw k).toNat := by rw [Offset.toNat_ofRaw]; omega
    rw [offset, ofOffset, if_pos hraw, Offset.rawIndex_ofRaw]
  | rsvd024 => rfl
  | block b off =>
    obtain ⟨hlo, hhi, -⟩ := (b.fits_iff off).mp hp
    exact ofOffset_of_range b off hlo hhi

/-- The offset of a well-formed place is aligned. -/
theorem offset_aligned (p : Place) (hp : p.WellFormed = true) : p.offset.toNat % 4 = 0 := by
  cases p with
  | reg r => cases r <;> rfl
  | raw k => rw [offset, Offset.toNat_ofRaw]; omega
  | rsvd024 => rfl
  | block b off => exact ((b.fits_iff off).mp hp).2.2

/-- An offset of the RAW window is that of its index. -/
theorem ofRaw_rawIndex {off : Offset} (hraw : 0x800 ≤ off.toNat) (h : off.toNat % 4 = 0) :
    Offset.ofRaw (Offset.rawIndex off) = off := by
  have hlt : off.toNat < 4096 := off.isLt
  apply BitVec.eq_of_toNat_eq
  rw [Offset.toNat_ofRaw, Offset.toNat_rawIndex]
  omega

/-- R143: the reserved blocks fill the window from 0x028 to RAW. -/
theorem exists_block {off : Offset} (hlo : 0x028 ≤ off.toNat) (hhi : off.toNat < 0x800) :
    ∃ b : ReservedBlock, b.base.toNat ≤ off.toNat ∧ off.toNat < b.base.toNat + 2 ^ b.bits := by
  obtain h | h := Nat.lt_or_ge off.toNat 0x030
  · exact ⟨.at028, hlo, h⟩
  obtain h' | h' := Nat.lt_or_ge off.toNat 0x040
  · exact ⟨.at030, h, h'⟩
  obtain h | h := Nat.lt_or_ge off.toNat 0x080
  · exact ⟨.at040, h', h⟩
  obtain h' | h' := Nat.lt_or_ge off.toNat 0x100
  · exact ⟨.at080, h, h'⟩
  obtain h | h := Nat.lt_or_ge off.toNat 0x200
  · exact ⟨.at100, h', h⟩
  obtain h' | h' := Nat.lt_or_ge off.toNat 0x400
  · exact ⟨.at200, h, h'⟩
  · exact ⟨.at400, h', hhi⟩

/-- Every aligned offset is that of a well-formed place. -/
theorem exists_offset_eq (off : Offset) (h : off.toNat % 4 = 0) :
    ∃ p : Place, p.WellFormed = true ∧ p.offset = off := by
  obtain hraw | hhi := Nat.lt_or_ge off.toNat 0x800 |>.symm
  · exact ⟨raw (Offset.rawIndex off), rfl, ofRaw_rawIndex hraw h⟩
  obtain hlo | hreg := Nat.lt_or_ge off.toNat 0x028 |>.symm
  · obtain ⟨b, hbase, hend⟩ := exists_block hlo hhi
    exact ⟨block b off, (b.fits_iff off).mpr ⟨hbase, hend, h⟩, rfl⟩
  -- the ten words below the blocks: the nine registers and the reserved word at 0x024
  have hwords : off = 0x000#12 ∨ off = 0x004#12 ∨ off = 0x008#12 ∨ off = 0x00C#12 ∨ off = 0x010#12 ∨ off = 0x014#12
      ∨ off = 0x018#12 ∨ off = 0x01C#12 ∨ off = 0x020#12 ∨ off = 0x024#12 := by
    simp only [← BitVec.toNat_inj, BitVec.toNat_ofNat]
    omega
  obtain rfl | rfl | rfl | rfl | rfl | rfl | rfl | rfl | rfl | rfl := hwords
  · exact ⟨reg .caps, rfl, rfl⟩
  · exact ⟨reg .cmd, rfl, rfl⟩
  · exact ⟨reg .status, rfl, rfl⟩
  · exact ⟨reg .rawlen, rfl, rfl⟩
  · exact ⟨reg .txCode, rfl, rfl⟩
  · exact ⟨reg .resProto, rfl, rfl⟩
  · exact ⟨reg .resValue, rfl, rfl⟩
  · exact ⟨reg .resAddr, rfl, rfl⟩
  · exact ⟨reg .resInfo, rfl, rfl⟩
  · exact ⟨rsvd024, rfl, rfl⟩

end Place

/-! ## Accesses -/

/-- A word access that reads at a well-formed place's offset is the place's read, whatever stands for data. -/
theorem decodeBus_read (p : Place) (hp : p.WellFormed = true) (data : Word) :
    decodeBus (Descriptor.wordAccess false p.offset) data = p.read := by
  rw [decodeBus_wordAccess _ _ _ (p.offset_aligned hp), if_neg Bool.false_ne_true, Place.decodeRead_eq,
    p.ofOffset_offset hp]

/-- A word access that writes at a well-formed place's offset is the place's write. -/
theorem decodeBus_write (p : Place) (hp : p.WellFormed = true) (data : Word) :
    decodeBus (Descriptor.wordAccess true p.offset) data = p.write data := by
  rw [decodeBus_wordAccess _ _ _ (p.offset_aligned hp), if_pos rfl, Place.decodeWrite_eq, p.ofOffset_offset hp]

/-- The code of a well-formed place's read decodes to it. -/
theorem decode_of_encode_read (p : Place) {c : Code} (hwf : p.read.WellFormed = true) (hc : encode p.read = some c) :
    decode c = p.read := by
  rw [Place.wellFormed_read] at hwf
  rw [Place.encode_read, Option.some_inj] at hc
  subst hc
  exact decodeBus_read p hwf 0#32

/-- The code of a well-formed place's write decodes to it, with its data. -/
theorem decode_of_encode_write (p : Place) (data : Word) {c : Code} (hwf : (p.write data).WellFormed = true)
    (hc : encode (p.write data) = some c) : decode c = p.write data := by
  rw [Place.wellFormed_write] at hwf
  rw [Place.encode_write, Option.some_inj] at hc
  subst hc
  exact decodeBus_write p hwf data

end Sys2Proof
end

section
/-! PROOFS. Decoding and encoding (R100 to R103, R112, R116) undo each other: refused accesses by SIZE and alignment, command
words by OP, legal accesses by the place their offset names; and the written-out words (log 13). -/

namespace Sys2Proof

/-! ## Refused accesses -/

/-- R82, R116: SIZE alone decides the instruction of an access that is not of four bytes. -/
theorem decodeBus_size0 (write : Bool) (off : Offset) (data : Word) :
    decodeBus (Descriptor.mk 0#2 write off) data = .busErrSize0 write off := by
  simp [decodeBus]

theorem decodeBus_size1 (write : Bool) (off : Offset) (data : Word) :
    decodeBus (Descriptor.mk 1#2 write off) data = .busErrSize1 write off := by
  simp [decodeBus]

theorem decodeBus_size3 (write : Bool) (off : Offset) (data : Word) :
    decodeBus (Descriptor.mk 3#2 write off) data = .busErrSize3 write off := by
  simp [decodeBus]

theorem Offset.align_eq_iff (off : Offset) (a : BitVec 2) : Offset.align off = a ↔ off.toNat % 4 = a.toNat := by
  rw [← BitVec.toNat_inj, Offset.toNat_align]

/-- R82, R116: the alignment of a word access comes next. -/
theorem decodeBus_misalign1 (write : Bool) {off : Offset} (data : Word) (h : off.toNat % 4 = 1) :
    decodeBus (Descriptor.wordAccess write off) data = .busErrMisalign1 write off := by
  simp [decodeBus, Descriptor.wordAccess, Offset.align_eq_iff, h]

theorem decodeBus_misalign2 (write : Bool) {off : Offset} (data : Word) (h : off.toNat % 4 = 2) :
    decodeBus (Descriptor.wordAccess write off) data = .busErrMisalign2 write off := by
  simp [decodeBus, Descriptor.wordAccess, Offset.align_eq_iff, h]

theorem decodeBus_misalign3 (write : Bool) {off : Offset} (data : Word) (h : off.toNat % 4 = 3) :
    decodeBus (Descriptor.wordAccess write off) data = .busErrMisalign3 write off := by
  simp [decodeBus, Descriptor.wordAccess, Offset.align_eq_iff, h]

/-! ## Command words -/

@[simp] theorem Word.opField_setWidth (op : BitVec 4) : Word.opField (op.setWidth 32) = op := by
  have := op.isLt
  apply BitVec.eq_of_toNat_eq
  rw [Word.toNat_opField, BitVec.toNat_setWidth]
  omega

/-- R102: OP is the word's low four bits. -/
theorem Word.setWidth_opField (word : Word) : (Word.opField word).setWidth 32 = word &&& 0xF#32 := by
  apply BitVec.eq_of_toNat_eq
  rw [BitVec.toNat_setWidth, Word.toNat_opField, BitVec.toNat_and, show (0xF#32).toNat = 2 ^ 4 - 1 from rfl,
    Nat.and_two_pow_sub_one_eq_mod]
  omega

/-- R130: the bits above OP never matter. -/
theorem decodeCmd_and_opMask (word : Word) : decodeCmd (word &&& 0xF#32) = decodeCmd word := by
  rw [← Word.setWidth_opField, decodeCmd, Word.opField_setWidth, decodeCmd]

theorem decodeCmd_rsvdCmd4to7 (op : BitVec 4) (hwf : (Instr.rsvdCmd4to7 op).WellFormed = true) :
    decodeCmd (op.setWidth 32) = .rsvdCmd4to7 op := by
  revert op; decide

theorem decodeCmd_rsvdCmd8to15 (op : BitVec 4) (hwf : (Instr.rsvdCmd8to15 op).WellFormed = true) :
    decodeCmd (op.setWidth 32) = .rsvdCmd8to15 op := by
  revert op; decide

/-- Every OP has a row, whose instruction encodes to it (R103). -/
theorem encode_decodeCmd_op (op : BitVec 4) :
    (decodeCmd (op.setWidth 32)).WellFormed = true
    ∧ encode (decodeCmd (op.setWidth 32)) = some (.cmd (op.setWidth 32)) := by
  revert op; decide

/-! ## From an instruction to its code and back -/

/-- Settles O40: a command by its OP, a refused access by its size or its alignment, and a legal one by the place its offset
names. -/
theorem decodeOfEncodeIsTheInstruction : Obligations.DecodeOfEncodeIsTheInstruction := by
  intro i c hwf hc
  cases i
  case nop | resume | decode | send => cases hc; rfl
  case rsvdCmd4to7 op => cases hc; exact decodeCmd_rsvdCmd4to7 op hwf
  case rsvdCmd8to15 op => cases hc; exact decodeCmd_rsvdCmd8to15 op hwf
  case busErrSize0 write off => cases hc; exact decodeBus_size0 write off 0#32
  case busErrSize1 write off => cases hc; exact decodeBus_size1 write off 0#32
  case busErrSize3 write off => cases hc; exact decodeBus_size3 write off 0#32
  case busErrMisalign1 write off => cases hc; exact decodeBus_misalign1 write 0#32 ((off.fits_align_iff _).mp hwf)
  case busErrMisalign2 write off => cases hc; exact decodeBus_misalign2 write 0#32 ((off.fits_align_iff _).mp hwf)
  case busErrMisalign3 write off => cases hc; exact decodeBus_misalign3 write 0#32 ((off.fits_align_iff _).mp hwf)
  case rdCaps => exact decode_of_encode_read (.reg .caps) hwf hc
  case rdCmd => exact decode_of_encode_read (.reg .cmd) hwf hc
  case rdStatus => exact decode_of_encode_read (.reg .status) hwf hc
  case rdRawlen => exact decode_of_encode_read (.reg .rawlen) hwf hc
  case rdTxCode => exact decode_of_encode_read (.reg .txCode) hwf hc
  case rdResProto => exact decode_of_encode_read (.reg .resProto) hwf hc
  case rdResValue => exact decode_of_encode_read (.reg .resValue) hwf hc
  case rdResAddr => exact decode_of_encode_read (.reg .resAddr) hwf hc
  case rdResInfo => exact decode_of_encode_read (.reg .resInfo) hwf hc
  case rdRaw k => exact decode_of_encode_read (.raw k) hwf hc
  case rdRsvd024 => exact decode_of_encode_read .rsvd024 hwf hc
  case rdRsvd028 off => exact decode_of_encode_read (.block .at028 off) hwf hc
  case rdRsvd030 off => exact decode_of_encode_read (.block .at030 off) hwf hc
  case rdRsvd040 off => exact decode_of_encode_read (.block .at040 off) hwf hc
  case rdRsvd080 off => exact decode_of_encode_read (.block .at080 off) hwf hc
  case rdRsvd100 off => exact decode_of_encode_read (.block .at100 off) hwf hc
  case rdRsvd200 off => exact decode_of_encode_read (.block .at200 off) hwf hc
  case rdRsvd400 off => exact decode_of_encode_read (.block .at400 off) hwf hc
  case wrCaps data => exact decode_of_encode_write (.reg .caps) data hwf hc
  case wrCmd data => exact decode_of_encode_write (.reg .cmd) data hwf hc
  case wrStatus data => exact decode_of_encode_write (.reg .status) data hwf hc
  case wrRawlen data => exact decode_of_encode_write (.reg .rawlen) data hwf hc
  case wrTxCode data => exact decode_of_encode_write (.reg .txCode) data hwf hc
  case wrResProto data => exact decode_of_encode_write (.reg .resProto) data hwf hc
  case wrResValue data => exact decode_of_encode_write (.reg .resValue) data hwf hc
  case wrResAddr data => exact decode_of_encode_write (.reg .resAddr) data hwf hc
  case wrResInfo data => exact decode_of_encode_write (.reg .resInfo) data hwf hc
  case wrRaw k data => exact decode_of_encode_write (.raw k) data hwf hc
  case wrRsvd024 data => exact decode_of_encode_write .rsvd024 data hwf hc
  case wrRsvd028 off data => exact decode_of_encode_write (.block .at028 off) data hwf hc
  case wrRsvd030 off data => exact decode_of_encode_write (.block .at030 off) data hwf hc
  case wrRsvd040 off data => exact decode_of_encode_write (.block .at040 off) data hwf hc
  case wrRsvd080 off data => exact decode_of_encode_write (.block .at080 off) data hwf hc
  case wrRsvd100 off data => exact decode_of_encode_write (.block .at100 off) data hwf hc
  case wrRsvd200 off data => exact decode_of_encode_write (.block .at200 off) data hwf hc
  case wrRsvd400 off data => exact decode_of_encode_write (.block .at400 off) data hwf hc
  case sample | txPulse | txEnd | rst => cases hc

/-! ## From a word to its instruction and back -/

/-- An instruction stands for a descriptor and a data word: it is well formed, and its code has the descriptor, and the
data where the descriptor is that of a legal write. -/
def Instr.StandsFor (i : Instr) (desc : Descriptor) (data : Word) : Prop :=
  i.WellFormed = true
  ∧ ∃ data', encode i = some (.bus desc data') ∧ (desc.toNat / 4096 = 5 → desc.toNat % 4 = 0 → data' = data)

/-- A code without data is enough for a descriptor that is no legal write's. -/
theorem Instr.standsFor_of_dataless {i : Instr} {desc : Descriptor} {data : Word} (hwf : i.WellFormed = true)
    (hcode : encode i = some (.bus desc 0#32)) (hdesc : desc.toNat / 4096 ≠ 5 ∨ desc.toNat % 4 ≠ 0) :
    i.StandsFor desc data :=
  ⟨hwf, 0#32, hcode, fun hwrite halign => absurd ⟨hwrite, halign⟩ (not_and_or.mpr hdesc)⟩

theorem Descriptor.toNat_mk_div (size : BitVec 2) (write : Bool) (off : Offset) :
    (Descriptor.mk size write off).toNat / 4096 = 2 * size.toNat + write.toNat := by
  have := off.isLt
  rw [Descriptor.toNat_mk]
  omega

theorem Descriptor.toNat_mk_mod (size : BitVec 2) (write : Bool) (off : Offset) :
    (Descriptor.mk size write off).toNat % 4 = off.toNat % 4 := by
  rw [Descriptor.toNat_mk]
  omega

/-- An access of a refused size stands for its descriptor. -/
theorem standsFor_of_size_ne {size : BitVec 2} (write : Bool) (off : Offset) (data : Word) (hsize : size ≠ 2#2) :
    (decodeBus (Descriptor.mk size write off) data).StandsFor (Descriptor.mk size write off) data := by
  have hdesc : (Descriptor.mk size write off).toNat / 4096 ≠ 5 := by
    rw [Descriptor.toNat_mk_div]
    have := Bool.toNat_le write
    bv_omega
  have hcases : ∀ size : BitVec 2, size ≠ 2#2 → size = 0#2 ∨ size = 1#2 ∨ size = 3#2 := by decide
  obtain rfl | rfl | rfl := hcases size hsize
  · rw [decodeBus_size0]; exact Instr.standsFor_of_dataless rfl rfl (.inl hdesc)
  · rw [decodeBus_size1]; exact Instr.standsFor_of_dataless rfl rfl (.inl hdesc)
  · rw [decodeBus_size3]; exact Instr.standsFor_of_dataless rfl rfl (.inl hdesc)

/-- A misaligned word access stands for its descriptor. -/
theorem standsFor_of_misaligned (write : Bool) (off : Offset) (data : Word) (h : off.toNat % 4 ≠ 0) :
    (decodeBus (Descriptor.wordAccess write off) data).StandsFor (Descriptor.wordAccess write off) data := by
  have hdesc : (Descriptor.wordAccess write off).toNat % 4 ≠ 0 := by rwa [Descriptor.wordAccess, Descriptor.toNat_mk_mod]
  obtain h1 | h2 | h3 : off.toNat % 4 = 1 ∨ off.toNat % 4 = 2 ∨ off.toNat % 4 = 3 := by omega
  · rw [decodeBus_misalign1 write data h1]
    exact Instr.standsFor_of_dataless ((off.fits_align_iff _).mpr h1) rfl (.inr hdesc)
  · rw [decodeBus_misalign2 write data h2]
    exact Instr.standsFor_of_dataless ((off.fits_align_iff _).mpr h2) rfl (.inr hdesc)
  · rw [decodeBus_misalign3 write data h3]
    exact Instr.standsFor_of_dataless ((off.fits_align_iff _).mpr h3) rfl (.inr hdesc)

/-- A legal access stands for its descriptor, and a legal write for its data too. -/
theorem standsFor_of_aligned (write : Bool) (off : Offset) (data : Word) (h : off.toNat % 4 = 0) :
    (decodeBus (Descriptor.wordAccess write off) data).StandsFor (Descriptor.wordAccess write off) data := by
  obtain ⟨p, hwf, rfl⟩ := Place.exists_offset_eq off h
  cases write
  case false =>
    have hdesc : (Descriptor.wordAccess false p.offset).toNat / 4096 ≠ 5 := by
      rw [Descriptor.wordAccess, Descriptor.toNat_mk_div]
      decide
    rw [decodeBus_read p hwf]
    exact Instr.standsFor_of_dataless (p.wellFormed_read.trans hwf) p.encode_read (.inl hdesc)
  case true =>
    rw [decodeBus_write p hwf]
    exact ⟨(p.wellFormed_write data).trans hwf, data, p.encode_write data, fun _ _ => rfl⟩

/-- Every descriptor's meaning stands for it (R116). -/
theorem decodeBus_standsFor (desc : Descriptor) (data : Word) : (decodeBus desc data).StandsFor desc data := by
  rw [← Descriptor.mk_fields desc]
  obtain hsize | hsize := ne_or_eq (Descriptor.size desc) 2#2
  · exact standsFor_of_size_ne _ _ data hsize
  · rw [hsize]
    obtain halign | halign := ne_or_eq ((Descriptor.offset desc).toNat % 4) 0
    · exact standsFor_of_misaligned _ _ data halign
    · exact standsFor_of_aligned _ _ data halign

/-- Settles O41: a descriptor by its size, its alignment and the place its offset names; a command word by its OP. -/
theorem encodeOfDecodeIsTheWord : Obligations.EncodeOfDecodeIsTheWord := by
  refine ⟨decodeBus_standsFor, fun word => ?_⟩
  rw [← decodeCmd_and_opMask, ← Word.setWidth_opField]
  exact encode_decodeCmd_op (Word.opField word)

/-! ## Words written out -/

/-- Settles O39: the ten words, evaluated. -/
theorem writtenOutWordsDecode : Obligations.WrittenOutWordsDecode := by
  simp only [Obligations.WrittenOutWordsDecode, decodeTableWord_eq, Option.some_inj]
  decide

end Sys2Proof
end

section
/-! PROOFS. A poll is one read a turn (R113; log 5), and the two bits of STATUS that `waittx` and `waitready` wait for
(R48). -/

namespace Sys2Proof.Machine

/-! ## The bits of STATUS -/

/-- TX_BUSY is bit 4 of STATUS (R48). -/
theorem statusWord_getLsbD_txBusy (s : State) : s.statusWord.getLsbD 4 = s.txBusy := by
  simp only [State.statusWord, BitVec.getLsbD_setWidth, BitVec.getLsbD_append]
  simp

/-- READY is bit 6 of STATUS (R48). -/
theorem statusWord_getLsbD_ready (s : State) : s.statusWord.getLsbD 6 = s.ready := by
  simp only [State.statusWord, BitVec.getLsbD_setWidth, BitVec.getLsbD_append]
  simp

/-- What `waittx` waits for. -/
theorem statusWord_and_txBusy_iff (s : State) : s.statusWord &&& 0x10#32 = 0x00#32 ↔ ¬ s.txBusy = true := by
  rw [show 0x10#32 = BitVec.twoPow 32 4 from rfl, BitVec.and_twoPow, statusWord_getLsbD_txBusy]
  cases s.txBusy <;> decide

/-- What `waitready` waits for. -/
theorem statusWord_and_ready_iff (s : State) :
    s.statusWord &&& 0x40#32 = 0x40#32 ↔ s.capState = .frameComplete ∨ s.capState = .overflow := by
  rw [← ready_iff, show 0x40#32 = BitVec.twoPow 32 6 from rfl, BitVec.and_twoPow, statusWord_getLsbD_ready]
  cases s.ready <;> decide

/-! ## A poll -/

theorem lastRead_respond (s : State) (w : Word) : (s.respond w).lastRead = w := by
  simp [State.lastRead, State.respond]

theorem performAccess_readStatus (s : State) :
    performAccess (.read Reg.status.offset) s = .next (s.respond s.statusWord) := rfl

/-- R113: a poll of STATUS reads it once, and stays in the program until the masked word is the awaited one. -/
theorem scriptStep_poll_status (s : State) (mask val : Word) (rest : List HostOp) :
    scriptStep (.poll .status mask val) rest s
      = .next { s.respond s.statusWord with script := if s.statusWord &&& mask = val then rest else s.script } := by
  rw [scriptStep, performAccess_readStatus]
  simp only [lastRead_respond]
  split <;> rfl

/-- The step of a host whose program begins with a poll of STATUS. -/
theorem step_of_poll_status {s : State} {later : List Turn} {mask val : Word} {rest : List HostOp}
    (hagenda : s.agenda = .host :: later) (hscript : s.script = .poll .status mask val :: rest) :
    step s = .next { s with
      agenda := later, reads := s.reads ++ [s.statusWord]
      script := if s.statusWord &&& mask = val then rest else s.script } := by
  rw [step_of_host_script hagenda hscript, scriptStep_poll_status]
  rfl

/-- Settles O55: a poll reads STATUS once; `waittx` waits for its bit 4 to be 0 and `waitready` for its bit 6 to be 1. That a
poll is one read a turn is the model's schedule (log 5). -/
theorem pollingReadsStatusOnceATurn : Obligations.PollingReadsStatusOnceATurn := by
  intro s later rest hagenda
  refine ⟨fun hscript => ⟨s.statusWord, rfl, ?_⟩, fun hscript => ⟨s.statusWord, rfl, ?_⟩⟩
  · rw [step_of_poll_status hagenda hscript, hscript]
    simp only [statusWord_and_txBusy_iff, ite_not]
  · rw [step_of_poll_status hagenda hscript, hscript]
    simp only [statusWord_and_ready_iff]

end Sys2Proof.Machine
end

section
/-! PROOFS. The commands (R130 to R132): a CMD write is the command of its low nibble, and the sticky command-error flag. -/

namespace Sys2Proof

/-- A command word and its OP alone are the same command (R102). -/
theorem decodeCmd_opField (word : Word) : decodeCmd ((Word.opField word).setWidth 32) = decodeCmd word := by
  rw [Word.setWidth_opField, decodeCmd_and_opMask]

/-- R130: a command word is decoded by its low nibble alone. -/
theorem decodeCmd_congr {word word' : Word} (h : word'.toNat % 16 = word.toNat % 16) : decodeCmd word' = decodeCmd word := by
  have hop : Word.opField word' = Word.opField word := by
    rw [← BitVec.toNat_inj, Word.toNat_opField, Word.toNat_opField, h]
  rw [← decodeCmd_opField word', hop, decodeCmd_opField]

/-- R103: an OP from 4 up is one of the two reserved rows. -/
theorem decodeCmd_reserved {word : Word} (h : 4 ≤ word.toNat % 16) :
    decodeCmd word = .rsvdCmd4to7 (Word.opField word) ∨ decodeCmd word = .rsvdCmd8to15 (Word.opField word) := by
  have hrows : ∀ op : BitVec 4, 4 ≤ op.toNat →
      decodeCmd (op.setWidth 32) = .rsvdCmd4to7 op ∨ decodeCmd (op.setWidth 32) = .rsvdCmd8to15 op := by decide
  rw [← Word.toNat_opField] at h
  rw [← decodeCmd_opField]
  exact hrows _ h

end Sys2Proof

namespace Sys2Proof.Machine

theorem exec_wrCmd_congr {data data' : Word} (s : State) (h : data'.toNat % 16 = data.toNat % 16) :
    exec (.wrCmd data') s = exec (.wrCmd data) s := by
  rw [exec_wrCmd, exec_wrCmd, decodeCmd_congr h]

theorem exec_wrCmd_reserved {data : Word} (s : State) (h : 4 ≤ data.toNat % 16) :
    exec (.wrCmd data) s = .next s.flagCommand := by
  obtain hrow | hrow := decodeCmd_reserved h <;> rw [exec_wrCmd, hrow] <;> rfl

/-- Settles O3: a CMD write performs the command of the word whose other bits are 0. -/
theorem cmdWritePerformsTheCommandOfItsLowNibble : Obligations.CmdWritePerformsTheCommandOfItsLowNibble := by
  intro d s
  have hcompletes : ∃ t, exec (.wrCmd d) s = .next t := by
    rw [exec_wrCmd]
    exact exec_decodeCmd_completes d s
  refine ⟨hcompletes, fun hnop => ?_, fun hresume => ?_, fun hdecode => ?_, fun hsend => ?_, exec_wrCmd_reserved s,
    fun _ => exec_wrCmd_congr s⟩
  · exact exec_wrCmd_congr (data := 0#32) s hnop
  · exact exec_wrCmd_congr (data := 1#32) s hresume
  · exact exec_wrCmd_congr (data := 2#32) s hdecode
  · exact exec_wrCmd_congr (data := 3#32) s hsend

/-- R42: only NOP and reset clear `cmd_err`. -/
theorem cmdErr_of_exec {i : Instr} {s t : State} (h : exec i s = .next t) (hrst : i ≠ .rst)
    (hnop : commandOp i ≠ some 0#4) (hs : s.cmdErr = true) : t.cmdErr = true := by
  by_contra ht
  exact ((exec_effect h).cmdErr_cleared hs (Bool.eq_false_iff.mpr ht)).elim hrst hnop

/-- Settles O1: it is the meaning of NOP. -/
theorem nopClearsOnlyCommandError : Obligations.NopClearsOnlyCommandError := fun _ => rfl

/-- Settles O2: the two rows are one meaning, and the commands 1 to 3 are none of those that clear the flag. -/
theorem reservedCommandsSetOnlyCommandError : Obligations.ReservedCommandsSetOnlyCommandError := by
  intro op s
  refine ⟨rfl, rfl, fun i t hi h => ?_⟩
  obtain rfl | rfl | rfl := hi <;> exact cmdErr_of_exec h (by decide) (by decide)

end Sys2Proof.Machine
end

section
/-! PROOFS. The registers (R134 to R143): the words of the packed ones as numbers, the RAW window, the reserved places, and
the writes. -/

namespace Sys2Proof.Machine

/-! ## Packed words as numbers -/

/-- A concatenation as a number: the high part stands above the low part's bits. -/
theorem toNat_append_eq_add {n m : Nat} (x : BitVec n) (y : BitVec m) : (x ++ y).toNat = x.toNat * 2 ^ m + y.toNat := by
  rw [BitVec.toNat_append, ← Nat.shiftLeft_add_eq_or_of_lt y.isLt, Nat.shiftLeft_eq]

theorem capsWord_toNat (s : State) :
    s.capsWord.toNat = s.cfg.usecPerTick % 65536 * 65536 + s.cfg.rawbuf % 65536 := by
  rw [State.capsWord, toNat_append_eq_add, BitVec.toNat_ofNat, BitVec.toNat_ofNat]
  rfl

theorem statusWord_toNat (s : State) :
    s.statusWord.toNat = s.capState.code.toNat + 4 * s.ovf.toNat + 8 * s.resValid.toNat + 16 * s.txBusy.toNat
      + 32 * s.cmdErr.toNat + 64 * s.ready.toNat := by
  rw [State.statusWord, BitVec.toNat_setWidth_of_le (by decide)]
  simp only [toNat_append_eq_add, BitVec.toNat_ofBool]
  omega

theorem resInfoWord_toNat (s : State) :
    s.resInfoWord.toNat = s.resBits.toNat + 256 * s.resAddrPresent.toNat + 512 * s.resOvf.toNat := by
  rw [State.resInfoWord, BitVec.toNat_setWidth_of_le (by decide)]
  simp only [toNat_append_eq_add, BitVec.toNat_ofBool]
  omega

theorem rawlen_setWidth_toNat (s : State) : (s.rawlen.setWidth 32).toNat = s.buf.length % 65536 := by
  rw [BitVec.toNat_setWidth_of_le (by decide), State.rawlen, BitVec.toNat_ofNat]

/-- Settles O8: CAPS packs two parameters, and every effect keeps the parameters. -/
theorem capsReadsTheBuildParameters : Obligations.CapsReadsTheBuildParameters :=
  fun s => ⟨s.capsWord, rfl, capsWord_toNat s, fun _ _ h => (exec_effect h).cfg_eq⟩

/-- Settles O9: the number of STATUS, with the state's code and READY read off the capture state. -/
theorem statusReadPacksTheFlags : Obligations.StatusReadPacksTheFlags := by
  intro s
  refine ⟨s.statusWord, rfl, ?_, fun hok hc => ?_⟩
  · rw [statusWord_toNat, State.ready]
    cases s.capState <;> rfl
  · obtain ⟨-, hovf⟩ := (captureOk_overflow_iff hc).mp hok
    have hready : s.ready = true := (ready_iff s).mpr (.inr hc)
    rw [statusWord_toNat, hc, hovf, hready]
    simp only [CapState.code, Bool.toNat_true, BitVec.toNat_ofNat]
    omega

/-- Settles O10: the answers of the registers; in Overflow the buffer holds RAWBUF entries, which 16 bits count. -/
theorem registerReadsAnswerTheirFields : Obligations.RegisterReadsAnswerTheirFields := by
  intro s
  refine ⟨⟨s.rawlen.setWidth 32, rfl, rawlen_setWidth_toNat s, fun hv hok hc => ?_⟩, rfl,
    ⟨s.resProto.setWidth 32, rfl, BitVec.toNat_setWidth_of_le (by decide)⟩, rfl, rfl,
    ⟨s.resInfoWord, rfl, resInfoWord_toNat s⟩, rfl⟩
  obtain ⟨hfull, -⟩ := (captureOk_overflow_iff hc).mp hok
  obtain ⟨-, ⟨-, hraw⟩, -⟩ := hv
  rw [rawlen_setWidth_toNat]
  omega

/-! ## The RAW window -/

theorem rawWord_of_lt {s : State} {k : BitVec 9} (h : k.toNat < s.buf.length) :
    s.rawWord k = s.buf[k.toNat].setWidth 32 := by
  rw [State.rawWord, List.getElem?_eq_getElem h]

theorem rawWord_of_le {s : State} {k : BitVec 9} (h : s.buf.length ≤ k.toNat) : s.rawWord k = 0#32 := by
  rw [State.rawWord, List.getElem?_eq_none h]

/-- R137: `rawlen <= RAWBUF`. -/
theorem length_buf_le_rawbuf {s : State} (hs : s.CaptureOk) : s.buf.length ≤ s.cfg.rawbuf := by
  cases hc : s.capState with
  | idle =>
    obtain ⟨hbuf, -⟩ := (captureOk_idle_iff hc).mp hs
    simp [hbuf]
  | receiving => exact ((captureOk_receiving_iff hc).mp hs).1.le
  | frameComplete => exact ((captureOk_frameComplete_iff hc).mp hs).1.le
  | overflow => exact ((captureOk_overflow_iff hc).mp hs).1.le

theorem exec_rdRaw (k : BitVec 9) (s : State) : exec (.rdRaw k) s = .next (s.respond (s.rawWord k)) :=
  exec_of_isRead rfl s

theorem exec_rdRaw_of_le {s : State} {k : BitVec 9} (h : s.buf.length ≤ k.toNat) :
    exec (.rdRaw k) s = .next (s.respond 0#32) := by
  rw [exec_rdRaw, rawWord_of_le h]

/-- Settles O13: the entry below `rawlen`, 0 from there on, and `rawlen` is at most RAWBUF. -/
theorem rawReadAnswersTheEntryOrZero : Obligations.RawReadAnswersTheEntryOrZero := by
  intro s k
  refine ⟨fun hlt => ⟨s.rawWord k, exec_rdRaw k s, ?_⟩, exec_rdRaw_of_le, fun _ hok hk => ?_⟩
  · rw [rawWord_of_lt hlt, BitVec.toNat_setWidth_of_le (by decide)]
  · exact exec_rdRaw_of_le ((length_buf_le_rawbuf hok).trans hk)

/-! ## Reserved places and writes -/

theorem exec_read_block (b : ReservedBlock) (off : Offset) (s : State) :
    exec (Place.block b off).read s = .next (s.respond 0#32) := by
  cases b <;> rfl

theorem exec_write_block (b : ReservedBlock) (off : Offset) (data : Word) (s : State) :
    exec ((Place.block b off).write data) s = .next s := by
  cases b <;> rfl

/-- R143: the places from 0x024 to 0x7FC are the reserved ones. -/
theorem exec_reserved {p : Place} (hlo : 0x024 ≤ p.offset.toNat) (hhi : p.offset.toNat ≤ 0x7FC) (data : Word)
    (s : State) :
    exec p.read s = .next (s.respond 0#32) ∧ exec (p.write data) s = .next s := by
  cases p with
  | reg r =>
    have hreg : r.offset.toNat ≤ 0x020 := by cases r <;> decide
    exact absurd (hlo.trans hreg) (by decide)
  | raw k =>
    rw [Place.offset, Offset.toNat_ofRaw] at hhi
    omega
  | rsvd024 => exact ⟨rfl, rfl⟩
  | block b off => exact ⟨exec_read_block b off s, exec_write_block b off data s⟩

/-- Settles O11: the decoder gives the read and the write of the place at the offset, which is a reserved one. -/
theorem reservedOffsetsReadZeroAndIgnoreWrites : Obligations.ReservedOffsetsReadZeroAndIgnoreWrites := by
  intro off d s hlo hhi halign
  obtain ⟨p, hp, rfl⟩ := Place.exists_offset_eq off halign
  rw [decodeBus_read p hp, decodeBus_write p hp]
  exact exec_reserved hlo hhi d s

/-- Settles O12: the reserved word at 0x024, and the seven blocks one by one. -/
theorem reservedBlocksReadZeroAndIgnoreWrites : Obligations.ReservedBlocksReadZeroAndIgnoreWrites := by
  intro off d s
  have hread (b : ReservedBlock) := exec_read_block b off s
  have hwrite (b : ReservedBlock) := exec_write_block b off d s
  exact ⟨rfl, rfl, hread .at028, hwrite .at028, hread .at030, hwrite .at030, hread .at040, hwrite .at040,
    hread .at080, hwrite .at080, hread .at100, hwrite .at100, hread .at200, hwrite .at200, hread .at400, hwrite .at400⟩

/-- Settles O14: it is the meaning of the write. -/
theorem txCodeWriteStoresTheWord : Obligations.TxCodeWriteStoresTheWord := fun _ _ => rfl

/-- Settles O15: each write is an ignored one. -/
theorem readOnlyRegistersIgnoreWrites : Obligations.ReadOnlyRegistersIgnoreWrites := by
  intro d k s
  refine ⟨?_, ?_, ?_, ?_, ?_, ?_, ?_, ?_⟩ <;> exact exec_of_isIgnoredWrite rfl s

end Sys2Proof.Machine
end

section
/-! PROOFS. The decoder's arithmetic and the NEC matcher (R151 to R155, R161 to R163, R169, R170): the bands, the two spaces,
and the trains the matcher accepts, bit by bit. -/

namespace Sys2Proof.Machine

/-! ## The tolerance bands -/

/-- A count at the reference parameters stands for 50 us a tick. -/
theorem tickNs_reference (d : Ticks) : tickNs Params.reference d = 50000 * d.toNat := by
  simp only [tickNs, Params.reference]
  omega

/-- R153: at the reference parameters the test is an interval of `50 * d` microseconds around `562.5` units. -/
theorem inBand_reference_iff (d : Ticks) (units : Nat) :
    inBand Params.reference d units = true ↔
      75 * (units * 562500) ≤ 5000000 * d.toNat ∧ 5000000 * d.toNat ≤ 125 * (units * 562500) := by
  rw [inBand_iff, tickNs_reference, show Params.reference.tolPct = 25 from rfl]
  omega

/-- Settles O43: the four intervals in whole ticks. -/
theorem referenceBands : Obligations.ReferenceBands := by
  intro d
  simp only [inBand_reference_iff]
  omega

/-! ## The two spaces -/

theorem oneCandidate_eq_false_iff (p : Params) (d : Ticks) : oneCandidate p d = false ↔ 2 * tickNs p d < 2250000 := by
  rw [← Bool.not_eq_true, oneCandidate_iff, not_le]

/-- A space has a bit when it lies on that bit's side of the midpoint and in that bit's band (R155). -/
theorem classifySpace_eq_some_iff (p : Params) (d : Ticks) (b : Bool) :
    classifySpace p d = some b ↔ oneCandidate p d = b ∧ inBand p d (if b then 3 else 1) = true := by
  unfold classifySpace
  cases oneCandidate p d <;> cases b <;> simp

/-- R21: with `TOL_PCT` at most 33 the band of the one space lies above the midpoint. -/
theorem midpoint_lt_of_inBand_three {p : Params} {d : Ticks} (htol : p.tolPct ≤ 33) (h : inBand p d 3 = true) :
    2250000 < 2 * tickNs p d := by
  obtain ⟨hlo, -⟩ := (inBand_iff p d 3).mp h
  omega

/-- R21: and that of the zero space below it. -/
theorem lt_midpoint_of_inBand_one {p : Params} {d : Ticks} (htol : p.tolPct ≤ 33) (h : inBand p d 1 = true) :
    2 * tickNs p d < 2250000 := by
  obtain ⟨-, hhi⟩ := (inBand_iff p d 1).mp h
  omega

theorem oneCandidate_of_inBand {p : Params} {d : Ticks} {b : Bool} (htol : p.tolPct ≤ 33)
    (h : inBand p d (if b then 3 else 1) = true) : oneCandidate p d = b := by
  cases b with
  | false => exact (oneCandidate_eq_false_iff p d).mpr (lt_midpoint_of_inBand_one htol h)
  | true => exact (oneCandidate_iff p d).mpr (midpoint_lt_of_inBand_three htol h).le

/-- Settles O44: a band lies on its bit's side of the midpoint, and no band reaches it. -/
theorem spacesAreClassifiedByTheirBand : Obligations.SpacesAreClassifiedByTheirBand := by
  intro p d htol
  have hband (b : Bool) : classifySpace p d = some b ↔ inBand p d (if b then 3 else 1) = true :=
    (classifySpace_eq_some_iff p d b).trans (and_iff_right_of_imp (oneCandidate_of_inBand htol))
  refine ⟨hband, fun (hmid : 2 * tickNs p d = 2250000) => Option.eq_none_iff_forall_ne_some.mpr fun b hb => ?_⟩
  cases b with
  | false => exact (lt_midpoint_of_inBand_one htol ((hband false).mp hb)).ne hmid
  | true => exact (midpoint_lt_of_inBand_three htol ((hband true).mp hb)).ne' hmid

/-! ## The pairs of a NEC train -/

/-- The first `n` pairs of `rest` carry the bits of `w` from bit `i` on (R161, R162). -/
def PairsCarry (p : Params) (n i : Nat) (w : Word) (rest : List Ticks) : Prop :=
  ∀ j, j < n → inBand p (rest.getD (2 * j) 0#16) 1 = true
    ∧ classifySpace p (rest.getD (2 * j + 1) 0#16) = some (w.getLsbD (i + j))

/-- `n` more pairs: the first one, and the others one bit higher. -/
theorem pairsCarry_succ_iff (p : Params) (n i : Nat) (w : Word) (mark space : Ticks) (rest : List Ticks) :
    PairsCarry p (n + 1) i w (mark :: space :: rest) ↔
      (inBand p mark 1 = true ∧ classifySpace p space = some (w.getLsbD i)) ∧ PairsCarry p n (i + 1) w rest := by
  refine Nat.forall_lt_succ_left.trans (and_congr Iff.rfl (forall₂_congr fun j _ => ?_))
  rw [Nat.add_right_comm]
  exact Iff.rfl

/-- One turn of the loop: the pair must pass, and its bit is OR-ed into its place. -/
theorem necBits_succ_eq_some_iff (p : Params) (n i : Nat) (v : Word) (mark space : Ticks) (rest : List Ticks)
    (r : Word × List Ticks) :
    necBits p (n + 1) i v (mark :: space :: rest) = some r ↔
      inBand p mark 1 = true ∧ ∃ b, classifySpace p space = some b ∧ necBits p n (i + 1) (orBit v b i) rest = some r := by
  rw [necBits]
  cases inBand p mark 1 <;> cases classifySpace p space <;> simp

/-- A word agrees through bit `i` with `v` and `b` OR-ed in there, `v` having no bit `i`. -/
theorem agree_orBit_iff (v w : Word) (b : Bool) {i : Nat} (hi : i < 32) (hv : v.getLsbD i = false) :
    (∀ k, k < i + 1 → w.getLsbD k = (orBit v b i).getLsbD k) ↔
      (∀ k, k < i → w.getLsbD k = v.getLsbD k) ∧ w.getLsbD i = b := by
  have hat : (orBit v b i).getLsbD i = b := by simp [orBit_getLsbD v b i i hi, hv]
  have hbelow : ∀ k, k < i → (orBit v b i).getLsbD k = v.getLsbD k := fun k hk => by
    simp [orBit_getLsbD v b i k (hk.trans hi), hk.ne']
  rw [Nat.forall_lt_succ_right, hat]
  exact and_congr_left' (forall₂_congr fun k hk => by rw [hbelow k hk])

/-- OR-ing in bit `i` leaves the bits above it alone. -/
theorem orBit_getLsbD_above {v : Word} {i : Nat} (b : Bool) (hv : ∀ k, i ≤ k → v.getLsbD k = false) (k : Nat)
    (hk : i + 1 ≤ k) : (orBit v b i).getLsbD k = false := by
  obtain hlt | hge := lt_or_ge k 32
  · rw [orBit_getLsbD v b i k hlt, hv k (by omega), decide_eq_false (by omega : i ≠ k)]
    rfl
  · exact BitVec.getLsbD_of_ge _ _ hge

/-- The loop's answer: the word's bits from `i` on are those of the pairs, and those below are the bits gathered before. -/
theorem necBits_eq_some_iff (p : Params) {n i : Nat} {v w : Word} {rest after : List Ticks} (hn : i + n = 32)
    (hv : ∀ k, i ≤ k → v.getLsbD k = false) :
    necBits p n i v rest = some (w, after) ↔
      (2 * n ≤ rest.length ∧ after = rest.drop (2 * n)) ∧ PairsCarry p n i w rest
      ∧ ∀ k, k < i → w.getLsbD k = v.getLsbD k := by
  induction n generalizing i v rest with
  | zero =>
    have hword : v = w ↔ ∀ k, k < i → w.getLsbD k = v.getLsbD k :=
      ⟨fun h _ _ => by rw [h], fun h => (BitVec.eq_of_getLsbD_eq fun k hk => h k (by omega)).symm⟩
    have hpairs : PairsCarry p 0 i w rest := fun j hj => absurd hj (Nat.not_lt_zero j)
    simp only [necBits, Option.some.injEq, Prod.mk.injEq, hword, hpairs, Nat.mul_zero, Nat.zero_le, List.drop_zero, true_and]
    rw [and_comm, eq_comm]
  | succ n ih =>
    match rest with
    | [] => simp [necBits]
    | [mark] =>
      have hshort : ¬ 2 * (n + 1) ≤ [mark].length := by
        rw [List.length_singleton]
        omega
      simp only [necBits, hshort, reduceCtorEq, false_and]
    | mark :: space :: rest =>
      have hturn (b : Bool) := ih (i := i + 1) (v := orBit v b i) (rest := rest) (by omega) (orBit_getLsbD_above b hv)
      have hlen : 2 * (n + 1) ≤ (mark :: space :: rest).length ↔ 2 * n ≤ rest.length := by
        simp only [List.length_cons]
        omega
      have hdrop : (mark :: space :: rest).drop (2 * (n + 1)) = rest.drop (2 * n) := rfl
      simp only [necBits_succ_eq_some_iff, hturn, agree_orBit_iff v w _ (by omega : i < 32) (hv i le_rfl),
        pairsCarry_succ_iff, hlen, hdrop]
      constructor
      · rintro ⟨hmark, b, hspace, hrest, hpairs, hbelow, rfl⟩
        exact ⟨hrest, ⟨⟨hmark, hspace⟩, hpairs⟩, hbelow⟩
      · rintro ⟨hrest, ⟨⟨hmark, hspace⟩, hpairs⟩, hbelow⟩
        exact ⟨hmark, _, hspace, hrest, hpairs, hbelow, rfl⟩

/-! ## The NEC matcher -/

/-- The matcher's tests in its order, on a train that is long enough (R161). -/
theorem matchNec_eq_some_iff_necBits (p : Params) {mark space : Ticks} {rest : List Ticks} (m : Match)
    (hlen : 65 ≤ rest.length) :
    matchNec p (mark :: space :: rest) = some m ↔
      inBand p mark 16 = true ∧ inBand p space 8 = true
      ∧ ∃ v trail after, necBits p 32 0 0#32 rest = some (v, trail :: after) ∧ inBand p trail 1 = true
        ∧ { value := v, address := none, bitCount := 32#8 } = m := by
  have hlong : ¬ (mark :: space :: rest).length < 67 := by
    simp only [List.length_cons]
    omega
  rw [matchNec, if_neg hlong]
  generalize necBits p 32 0 0#32 rest = bits
  simp only [Option.ite_none_right_eq_some, and_congr_right_iff]
  intro _ _
  match bits with
  | none => simp
  | some (_, []) => simp
  | some (v, trail :: after) => simp

/-- The entries after the pairs start with the trailing mark. -/
theorem necBits_word_eq_some_iff (p : Params) {v : Word} {trail : Ticks} {after rest : List Ticks}
    (hlen : 65 ≤ rest.length) :
    necBits p 32 0 0#32 rest = some (v, trail :: after) ↔
      PairsCarry p 32 0 v rest ∧ trail = rest.getD 64 0#16 ∧ after = rest.drop 65 := by
  rw [necBits_eq_some_iff p (Nat.zero_add 32) (fun k _ => BitVec.getLsbD_zero), List.drop_eq_getElem_cons (by omega),
    List.cons.injEq, List.getD_eq_getElem _ _ (by omega)]
  simp [and_comm, (by omega : 64 ≤ rest.length)]

/-- The accepted trains in terms of the entries after the header. -/
theorem matchNec_eq_some_iff_pairsCarry (p : Params) {mark space : Ticks} {rest : List Ticks} (m : Match)
    (hlen : 65 ≤ rest.length) :
    matchNec p (mark :: space :: rest) = some m ↔
      inBand p mark 16 = true ∧ inBand p space 8 = true ∧ PairsCarry p 32 0 m.value rest
      ∧ inBand p (rest.getD 64 0#16) 1 = true ∧ m.address = none ∧ m.bitCount = 32#8 := by
  simp only [matchNec_eq_some_iff_necBits p m hlen, necBits_word_eq_some_iff p hlen, and_congr_right_iff]
  intro _ _
  constructor
  · rintro ⟨v, _, _, ⟨hpairs, rfl, rfl⟩, htrail, rfl⟩
    exact ⟨hpairs, htrail, rfl, rfl⟩
  · rintro ⟨hpairs, htrail, haddr, hcount⟩
    exact ⟨m.value, _, _, ⟨hpairs, rfl, rfl⟩, htrail, by rw [← haddr, ← hcount]⟩

/-- Settles O45: the loop's pairs start after the header, at entry 2. -/
theorem necMatcherAcceptsExactlyNecTrains : Obligations.NecMatcherAcceptsExactlyNecTrains := by
  intro p train m
  match train with
  | [] => simp [matchNec]
  | [_] => simp [matchNec]
  | mark :: space :: rest =>
    have hlong : 67 ≤ (mark :: space :: rest).length ↔ 65 ≤ rest.length := Nat.add_le_add_iff_right (n := 2)
    rw [hlong]
    obtain hlen | hlen := le_or_gt 65 rest.length
    · have hpairs : PairsCarry p 32 0 m.value rest ↔ ∀ i, i < 32 →
          inBand p ((mark :: space :: rest).getD (2 + 2 * i) 0#16) 1 = true
          ∧ classifySpace p ((mark :: space :: rest).getD (3 + 2 * i) 0#16) = some (m.value.getLsbD i) :=
        forall₂_congr fun j _ => by
          rw [Nat.zero_add, Nat.add_comm 2, Nat.add_comm 3]
          exact Iff.rfl
      rw [matchNec_eq_some_iff_pairsCarry p m hlen, hpairs]
      exact (and_iff_right hlen).symm
    · have hnone : matchNec p (mark :: space :: rest) = none := if_pos (Nat.add_lt_add_right hlen 2)
      simp [hnone, hlen.not_ge]

/-- Settles O46: the accepted trains are told by their first 67 entries. -/
theorem necMatcherReadsOnlyTheFrame : Obligations.NecMatcherReadsOnlyTheFrame := by
  intro p train extra
  refine ⟨fun hlen => Option.ext fun m => ?_, fun hlen => if_pos hlen⟩
  have hentry (k : Nat) (hk : k < 67) : (train ++ extra).getD k 0#16 = train.getD k 0#16 :=
    List.getD_append _ _ _ _ (by omega)
  have hlen' : 67 ≤ (train ++ extra).length := by
    rw [List.length_append]
    omega
  simp +contextual (disch := omega) only [necMatcherAcceptsExactlyNecTrains p _ m, hentry, hlen, hlen']

end Sys2Proof.Machine
end

section
/-! PROOFS. The decode function and DECODE (R156, R158, R159, R166, R168, R171): the order of the matchers, and a held
snapshot, which no instruction but RESUME and RST takes away. -/

namespace Sys2Proof.Machine

/-! ## The order of the matchers -/

/-- The first answer of the order's matchers is the result (R158, R171). -/
theorem firstMatch_eq_findSome (p : Params) (train : List Ticks) (order : List Protocol) :
    firstMatch p train order =
      (order.findSome? fun q => (matchProtocol p train q).map (matchedSignal q)).getD (unknownSignal false) := by
  induction order with
  | nil => rfl
  | cons q rest ih =>
    cases hq : matchProtocol p train q <;> simp [firstMatch, hq, ih]

theorem decodeTrain_of_ovf (p : Params) (train : List Ticks) : decodeTrain p train true = unknownSignal true := rfl

theorem decodeTrain_of_short {p : Params} {train : List Ticks} (h : train.length < p.minFrameLen) :
    decodeTrain p train false = unknownSignal false := by
  simp [decodeTrain, h]

theorem decodeTrain_of_long {p : Params} {train : List Ticks} (h : p.minFrameLen ≤ train.length) :
    decodeTrain p train false = firstMatch p train (.nec :: p.matcherOrder.map .other) := by
  simp [decodeTrain, h]

/-- Settles O47: the two tests before the matchers, then NEC at the head of the order, then the others. -/
theorem decodeTakesTheFirstAcceptingMatcher : Obligations.DecodeTakesTheFirstAcceptingMatcher := by
  intro p train
  refine ⟨decodeTrain_of_ovf p train, decodeTrain_of_short, fun m hlen hnec => ?_, fun hlen hnec => ?_⟩
  · rw [decodeTrain_of_long hlen, firstMatch, matchProtocol, hnec]
    rfl
  · rw [decodeTrain_of_long hlen, firstMatch, matchProtocol, hnec]
    simp only [firstMatch_eq_findSome, List.findSome?_map]
    rfl

/-! ## DECODE -/

theorem exec_decode_of_ready {s : State} (h : s.ready = true) :
    exec .decode s = .next { s.writeResult (decodeTrain s.cfg s.buf s.ovf) with resValid := true } :=
  if_pos h

theorem exec_decode_of_not_ready {s : State} (h : s.ready = false) : exec .decode s = .next { s with resValid := false } :=
  if_neg (ne_true_of_eq_false h)

/-- Settles O5: a snapshot is held in FrameComplete and in Overflow alone. -/
theorem decodeWritesTheResultOfTheSnapshot : Obligations.DecodeWritesTheResultOfTheSnapshot := by
  intro s
  refine ⟨fun hheld => exec_decode_of_ready ((ready_iff s).mpr hheld), fun hlost => exec_decode_of_not_ready ?_⟩
  obtain hc | hc := hlost
  · exact ready_of_idle hc
  · exact ready_of_receiving hc

/-! ## A held snapshot -/

/-- `s` holds the snapshot that `t` holds, with its result. -/
structure State.HoldsSnapshotOf (s t : State) : Prop where
  ready : s.ready = true
  cfg : s.cfg = t.cfg
  buf : s.buf = t.buf
  ovf : s.ovf = t.ovf
  resValid : s.resValid = true
  result : s.HoldsItsResult

/-- What every instruction that goes on keeps, a list of them keeps. -/
theorem execAll_keeps {P : State → Prop} {is : List Instr}
    (hkeep : ∀ i ∈ is, ∀ s t, P s → exec i s = .next t → P t) {s t : State} (hs : P s) (h : execAll is s = .next t) :
    P t := by
  induction is generalizing s with
  | nil =>
    cases h
    exact hs
  | cons i rest ih =>
    rw [execAll] at h
    split at h
    · rename_i u hu
      exact ih (fun j hj => hkeep j (List.mem_cons_of_mem i hj)) (hkeep i List.mem_cons_self s u hs hu) h
    · cases h
    · cases h

theorem not_receiving_of_ready {s : State} (h : s.ready = true) : s.capState ≠ .receiving :=
  fun hc => by simp [ready_of_receiving hc] at h

/-- The end of a transmission leaves a held snapshot alone (R228). -/
theorem transmissionEnd_of_ready {s : State} (h : s.ready = true) :
    s.transmissionEnd = { s with irTx := false, txBusy := false } := by
  obtain ⟨hc, -⟩ | ⟨-, e⟩ := transmissionEnd_cases s
  · exact absurd hc (not_receiving_of_ready h)
  · exact e

section Held
variable {i : Instr} {s t : State}

/-- R168, R227: only RESUME and RST touch a held snapshot. -/
theorem Effect.keeps_snapshot (h : Effect i s t) (hr : s.ready = true) (hrst : i ≠ .rst)
    (hresume : commandOp i ≠ some 1#4) : t.ready = true ∧ t.buf = s.buf ∧ t.ovf = s.ovf := by
  cases h with
  | resumed hi => exact absurd hi hresume
  | reset hi => exact absurd hi hrst
  | started _ _ hc => simp [ready_of_idle hc] at hr
  | counted _ _ hc => exact absurd hc (not_receiving_of_ready hr)
  | recorded _ _ hc => exact absurd hc (not_receiving_of_ready hr)
  | lastPulse p =>
    rw [transmissionEnd_of_ready (s := s.emit p) hr]
    exact ⟨hr, rfl, rfl⟩
  | ended =>
    rw [transmissionEnd_of_ready hr]
    exact ⟨hr, rfl, rfl⟩
  | _ => exact ⟨hr, rfl, rfl⟩

theorem Effect.keeps_resValid (h : Effect i s t) (hr : s.ready = true) (hv : s.resValid = true) (hrst : i ≠ .rst)
    (hresume : commandOp i ≠ some 1#4) : t.resValid = true := by
  by_contra hcleared
  obtain hi | hi | ⟨-, hlost⟩ := h.resValid_cleared hv (Bool.eq_false_iff.mpr hcleared)
  · exact hrst hi
  · exact hresume hi
  · simp [hr] at hlost

theorem Effect.keeps_holdsSnapshotOf {r : State} (h : Effect i s t) (hs : s.HoldsSnapshotOf r) (hrst : i ≠ .rst)
    (hresume : commandOp i ≠ some 1#4) : t.HoldsSnapshotOf r := by
  obtain ⟨hready, hbuf, hovf⟩ := h.keeps_snapshot hs.ready hrst hresume
  exact ⟨hready, h.cfg_eq.trans hs.cfg, hbuf.trans hs.buf, hovf.trans hs.ovf,
    h.keeps_resValid hs.ready hs.resValid hrst hresume, h.keeps_holdsItsResult hs.result⟩

end Held

theorem holdsSnapshotOf_of_decode {s t : State} (hr : s.ready = true) (h : exec .decode s = .next t) :
    t.HoldsSnapshotOf t := by
  rw [exec_decode_of_ready hr] at h
  cases h
  exact ⟨hr, rfl, rfl, rfl, rfl, fun _ => ⟨hr, rfl, rfl, rfl, rfl, rfl, rfl⟩⟩

/-- With a valid result DECODE changes nothing. -/
theorem exec_decode_of_holdsItsResult {s : State} (hv : s.resValid = true) (hs : s.HoldsItsResult) :
    exec .decode s = .next s := by
  obtain ⟨hready, hresult⟩ := hs hv
  rw [exec_decode_of_ready hready, (writeResult_eq_self_iff s _).mpr hresult, ← hv]

/-- Settles O6: nothing in between takes the snapshot or its result away, and the registers are functions of it. -/
theorem decodeIsIdempotentOnAHeldSnapshot : Obligations.DecodeIsIdempotentOnAHeldSnapshot := by
  intro s t u between hheld hdecode hbetween hrun
  have ht : t.HoldsSnapshotOf t := holdsSnapshotOf_of_decode ((ready_iff s).mpr hheld) hdecode
  have hu : u.HoldsSnapshotOf t := execAll_keeps (P := (·.HoldsSnapshotOf t))
    (fun i hi _ _ hs h => (exec_effect h).keeps_holdsSnapshotOf hs (hbetween i hi).1 (hbetween i hi).2) ht hrun
  obtain ⟨-, hproto, hvalue, haddr, hpresent, hbits, hovf⟩ := ht.result ht.resValid
  obtain ⟨-, hproto', hvalue', haddr', hpresent', hbits', hovf'⟩ := hu.result hu.resValid
  rw [hu.cfg, hu.buf, hu.ovf] at hproto' hvalue' haddr' hpresent' hbits' hovf'
  exact ⟨exec_decode_of_holdsItsResult hu.resValid hu.result, hu.resValid, hproto'.symm.trans hproto,
    hvalue'.symm.trans hvalue, haddr'.symm.trans haddr, hpresent'.symm.trans hpresent, hbits'.symm.trans hbits,
    hovf'.symm.trans hovf⟩

end Sys2Proof.Machine
end

section
/-! PROOFS. The matchers of the other protocols (R8, R160): what a readable train is read as, and the words its bits make. -/

namespace Sys2Proof.Machine

/-! ## Bits in their places -/

/-- Each bit of the word was there, or a 1 bit has its place there. -/
theorem placeBits_getLsbD (places : Nat → List Nat) (i : Nat) (bits : List Bool) (v : Word) {j : Nat} (hj : j < 32) :
    (placeBits places i bits v).getLsbD j = true ↔
      v.getLsbD j = true ∨ ∃ k, bits[k]? = some true ∧ j ∈ places (i + k) := by
  induction bits generalizing i v with
  | nil => simp [placeBits]
  | cons b rest ih =>
    have hlater : (∃ k, (b :: rest)[k]? = some true ∧ j ∈ places (i + k)) ↔
        (b = true ∧ j ∈ places i) ∨ ∃ k, rest[k]? = some true ∧ j ∈ places (i + 1 + k) := by
      rw [← Nat.or_exists_add_one]
      simp [Nat.add_right_comm, Nat.add_assoc]
    rw [placeBits, ih, foldl_orBit_getLsbD _ _ _ _ hj, hlater, Bool.or_eq_true, Bool.and_eq_true, decide_eq_true_eq,
      or_assoc, and_comm]

/-- R160(e): a bit of the word is 1 exactly when a 1 bit has its place there. -/
theorem wordOfBits_getLsbD (places : (count index : Nat) → List Nat) (bits : List Bool) {j : Nat} (hj : j < 32) :
    (wordOfBits places bits).getLsbD j = true ↔ ∃ i, bits[i]? = some true ∧ j ∈ places bits.length i := by
  simp [wordOfBits, placeBits_getLsbD _ _ _ _ hj]

theorem holdsBits_iff (f : MatcherFormat) (bits : List Bool) (m : Match) :
    holdsBits f bits m = true ↔ m.value = wordOfBits f.valuePlaces bits
      ∧ (m.address = none ∨ f.carriesAddress = true ∧ m.address = some (wordOfBits f.addressPlaces bits)) := by
  simp only [holdsBits, Bool.and_eq_true, Bool.or_eq_true, beq_iff_eq]

/-! ## Entries read within the contract -/

/-- A train that is read is read within the contract (R160(b), (d), (f)). -/
theorem readsAs_of_readSlots {p : Params} {f : MatcherFormat} {length : Nat} {before read : List Reading}
    {rest : List Ticks} (h : readSlots p f length before rest = some read) : ReadsAs p f length before rest read := by
  induction rest generalizing before with
  | nil =>
    unfold readSlots at h
    split at h
    · cases h
      exact .stop ‹_›
    · cases h
    · cases h
  | cons d rest ih =>
    unfold readSlots at h
    split at h
    · cases h
      exact .stop ‹_›
    · rename_i nominalsNs hslot
      split at h
      · rename_i nominalNs hfind
        exact .pulse nominalNs hslot (List.mem_of_find?_eq_some hfind) (List.find?_some hfind) (ih h)
      · cases h
    · rename_i hslot
      split at h
      · rename_i b hbit
        obtain ⟨rfl, hband, hside⟩ | ⟨rfl, hband, hside⟩ := classifyPulse_eq_some hbit
        · exact .zero hslot hband hside (ih h)
        · exact .one hslot hband hside (ih h)
      · cases h

/-! ## Matchers held to the contract -/

theorem matchContracted_of_obeys {p : Params} {f : MatcherFormat} {matcher : List Ticks → Option Match}
    {train : List Ticks} (h : ∀ m, matcher train = some m → obeysContract p f train m = true) :
    matchContracted p f matcher train = matcher train :=
  Option.ext fun m => matchContracted_eq_some.trans (and_iff_left_of_imp (h m))

theorem matchOther_of_family {p : Params} {k : Nat} (h : p.matchers = .family k) (q : OtherProtocol) (train : List Ticks) :
    matchOther p q train = matchContracted p (Config.otherFormat k q) (Config.otherMatcher k q) train := by
  rw [matchOther, h]

theorem matchOther_of_rejectAll {p : Params} (h : p.matchers = .rejectAll) (q : OtherProtocol) (train : List Ticks) :
    matchOther p q train = none := by
  rw [matchOther, h]

/-- Settles O48: an answer that obeys the contract holds the bits of a train that is read within it. -/
theorem otherMatchersKeepTheirContract : Obligations.OtherMatchersKeepTheirContract := by
  refine ⟨fun p f matcher train => ⟨fun _ => matchContracted_eq_some, matchContracted_of_obeys, fun m hm => ?_⟩,
    fun p q train => ⟨fun k hk => matchOther_of_family hk q train, fun hk => matchOther_of_rejectAll hk q train⟩⟩
  obtain ⟨mark, space, rest, read, rfl, hmark, hspace, hread, hbits⟩ := obeysContract_iff.mp hm
  obtain ⟨hvalue, haddress⟩ := (holdsBits_iff f (readBits read) m).mp hbits
  refine ⟨by simp, hmark, hspace, fun hsome => ?_, read, readsAs_of_readSlots hread, fun j hj => ?_, fun a ha j hj => ?_⟩
  · exact (haddress.resolve_left hsome).1
  · rw [hvalue]
    exact wordOfBits_getLsbD f.valuePlaces (readBits read) hj
  · obtain hnone | ⟨-, hsome⟩ := haddress
    · simp [hnone] at ha
    · rw [Option.some.inj (ha.symm.trans hsome)]
      exact wordOfBits_getLsbD f.addressPlaces (readBits read) hj

end Sys2Proof.Machine
end

section
/-! PROOFS. The NEC encoder (R190 to R200): the pulses of a frame one by one and their length together, SEND, the two steps of
the transmitter, and a whole transmission. -/

namespace Sys2Proof.Machine

/-! ## The pulses of a frame -/

/-- Pulse `k` of a frame (R191). -/
def necPulse (frame : Word) (k : Nat) : Pulse where
  level := k % 2 = 0
  units := if k = 0 then 16 else if k = 1 then 8 else if k % 2 = 0 then 1
           else if frame.getLsbD ((k - 3) / 2) then 3 else 1

theorem necPulses_eq_map (frame : Word) : necPulses frame = (List.range 67).map (necPulse frame) := rfl

theorem necPulses_getElem? {frame : Word} {k : Nat} (hk : k < 67) :
    (necPulses frame)[k]? = some (necPulse frame k) := by
  rw [necPulses_eq_map, List.getElem?_map, List.getElem?_range hk, Option.map_some]

/-- The pulses 2, 4, … of a frame are its bit marks, and the trailing mark (R191). -/
theorem necPulse_units_mark (frame : Word) (i : Nat) : (necPulse frame (2 + 2 * i)).units = 1 := by
  have hzero : 2 + 2 * i ≠ 0 := by omega
  have hone : 2 + 2 * i ≠ 1 := by omega
  have heven : (2 + 2 * i) % 2 = 0 := by omega
  rw [necPulse, if_neg hzero, if_neg hone, if_pos heven]

/-- The pulses 3, 5, … are its bit spaces (R191, R108). -/
theorem necPulse_units_space (frame : Word) (i : Nat) :
    (necPulse frame (3 + 2 * i)).units = if frame.getLsbD i then 3 else 1 := by
  have hzero : 3 + 2 * i ≠ 0 := by omega
  have hone : 3 + 2 * i ≠ 1 := by omega
  have hodd : ¬ (3 + 2 * i) % 2 = 0 := by omega
  have hbit : (3 + 2 * i - 3) / 2 = i := by omega
  rw [necPulse, if_neg hzero, if_neg hone, if_neg hodd, hbit]

/-- Settles O20: the list is that of the pulses 0 to 66. -/
theorem necPulseSequence : Obligations.NecPulseSequence := by
  intro frame k
  split
  · exact List.getElem?_eq_none ‹67 ≤ k›
  · exact necPulses_getElem? (Nat.lt_of_not_le ‹¬ 67 ≤ k›)

/-! ## The length of a frame -/

/-- The first `n` bits of a frame take two units each, and two more for each 1 (R191). -/
theorem sum_units_necBitPulses (frame : Word) (n : Nat) :
    (((List.range n).flatMap (necBitPulses frame)).map Pulse.units).sum
      = 2 * n + 2 * (List.range n).countP (frame.getLsbD ·) := by
  induction n with
  | zero => rfl
  | succ n ih =>
    have hbit : ((necBitPulses frame n).map Pulse.units).sum = if frame.getLsbD n then 4 else 2 := by
      cases h : frame.getLsbD n <;> simp [necBitPulses, h]
    rw [List.range_succ, List.flatMap_append, List.map_append, List.sum_append, ih, List.countP_append,
      List.flatMap_singleton, hbit, List.countP_singleton]
    split <;> omega

theorem sum_units_necPulses (frame : Word) :
    ((necPulses frame).map Pulse.units).sum = 89 + 2 * (List.range 32).countP (frame.getLsbD ·) := by
  rw [necPulses, List.map_append, List.map_append, List.sum_append, List.sum_append, sum_units_necBitPulses]
  simp only [List.map_cons, List.map_nil, List.sum_cons, List.sum_nil]
  omega

/-- The mask's eight bits are in every frame (R192). -/
theorem eight_le_countP_necFrame (code : Word) : 8 ≤ (List.range 32).countP ((necFrame code).getLsbD ·) :=
  calc 8 = (List.range 32).countP (Config.necInitMask.getLsbD ·) := by decide
    _ ≤ (List.range 32).countP ((necFrame code).getLsbD ·) :=
      List.countP_mono_left fun i _ hi => by rw [necFrame, BitVec.getLsbD_or, hi, Bool.true_or]

/-- Settles O21: of 32 bits between 8 and 32 are 1 in a masked frame. -/
theorem frameDuration : Obligations.FrameDuration := by
  intro frame code
  have hlo := eight_le_countP_necFrame code
  have hhi : (List.range 32).countP ((necFrame code).getLsbD ·) ≤ 32 := List.countP_le_length
  rw [sum_units_necPulses frame, sum_units_necPulses (necFrame code)]
  omega

/-! ## SEND -/

/-- Settles O7: the mask is OR-ed into the code. -/
theorem sendLatchesTheMaskedFrame : Obligations.SendLatchesTheMaskedFrame :=
  fun _ => ⟨fun hidle => if_neg (ne_true_of_eq_false hidle), fun hbusy => if_pos hbusy⟩

/-! ## The end of a transmission -/

theorem transmissionEnd_of_receiving {s : State} (hc : s.capState = .receiving) :
    s.transmissionEnd = { s.clearCapture with irTx := false, txBusy := false } := by
  obtain ⟨-, h⟩ | ⟨hne, -⟩ := transmissionEnd_cases s
  · exact h
  · exact absurd hc hne

theorem transmissionEnd_of_not_receiving {s : State} (hc : s.capState ≠ .receiving) :
    s.transmissionEnd = { s with irTx := false, txBusy := false } := by
  obtain ⟨hr, -⟩ | ⟨-, h⟩ := transmissionEnd_cases s
  · exact absurd hr hc
  · exact h

theorem transmissionEnd_wireOut (s : State) : s.transmissionEnd.wireOut = s.wireOut := by
  obtain ⟨-, h⟩ | ⟨-, h⟩ := transmissionEnd_cases s <;> rw [h]
  rfl

theorem exec_txEnd_of_sent {s : State} (hb : s.txBusy = true) (hx : s.txIdx = 67#7) :
    exec .txEnd s = .next s.transmissionEnd :=
  if_pos (by rw [hb, hx]; rfl)

/-- Settles O23: TX_END is enabled at index 67 (log 14), and ends the transmission. -/
theorem transmissionEnd : Obligations.TransmissionEnd := by
  intro s hb hx
  rw [exec_txEnd_of_sent hb hx]
  refine ⟨fun hc => ?_, fun hc => ?_⟩
  · rw [transmissionEnd_of_not_receiving hc]
  · rw [transmissionEnd_of_receiving hc]
    rfl

/-! ## The pulse step -/

/-- A pulse step emits pulse `tx_idx`, and ends the transmission exactly when the index has become 67 (R198, R199). -/
theorem exec_txPulse {s : State} {p : Pulse} (hb : s.txBusy = true)
    (hp : (necPulses s.txFrame)[s.txIdx.toNat]? = some p) :
    exec .txPulse s = if s.txIdx + 1#7 = 67#7 then .next (s.emit p).transmissionEnd else .next (s.emit p) := by
  show execTxPulse s = _
  rw [execTxPulse, if_pos hb, hp]
  rfl

theorem exec_txPulse_of_lt {s : State} {p : Pulse} (hb : s.txBusy = true)
    (hp : (necPulses s.txFrame)[s.txIdx.toNat]? = some p) (hx : s.txIdx.toNat < 66) :
    exec .txPulse s = .next (s.emit p) := by
  rw [exec_txPulse hb hp, if_neg (by bv_omega)]

theorem exec_txPulse_of_last {s : State} {p : Pulse} (hb : s.txBusy = true)
    (hp : (necPulses s.txFrame)[s.txIdx.toNat]? = some p) (hx : s.txIdx = 66#7) :
    exec .txPulse s = .next (s.emit p).transmissionEnd := by
  rw [exec_txPulse hb hp, if_pos (by rw [hx]; rfl)]

/-- Settles O22: a pulse before the last, and the last with each of the two ends. -/
theorem transmitterPulseStep : Obligations.TransmitterPulseStep := by
  intro s p hb hp
  refine ⟨exec_txPulse_of_lt hb hp, fun hlast hc => ?_, fun hlast hc => ?_⟩
  all_goals
    have hx : s.txIdx = 66#7 := BitVec.eq_of_toNat_eq hlast
    have hnext : s.txIdx + 1#7 = 67#7 := by rw [hx]; rfl
    rw [exec_txPulse_of_last hb hp hx]
  · rw [transmissionEnd_of_not_receiving (s := s.emit p) hc, State.emit, hnext]
  · rw [transmissionEnd_of_receiving (s := s.emit p) hc, State.emit, hnext]
    rfl

/-! ## A whole transmission -/

theorem execAll_cons {i : Instr} (rest : List Instr) {s t : State} (h : exec i s = .next t) :
    execAll (i :: rest) s = execAll rest t := by
  rw [execAll, h]

/-- Instructions after others that go on are performed in the state those lead to. -/
theorem execAll_append {is : List Instr} (js : List Instr) {s t : State} (h : execAll is s = .next t) :
    execAll (is ++ js) s = execAll js t := by
  induction is generalizing s with
  | nil =>
    cases h
    rfl
  | cons i rest ih =>
    rw [execAll] at h
    split at h
    · rename_i hi
      rw [List.cons_append, execAll_cons _ hi, ih h]
    · cases h
    · cases h

theorem execAll_singleton (i : Instr) (s : State) : execAll [i] s = exec i s := by
  rw [execAll]
  split <;> simp only [execAll, *]

/-- A transmission that has emitted `n` pulses since `s`, the output at `level`. -/
def State.afterPulses (s : State) (level : Level) (n : Nat) : State :=
  { s with irTx := level, wireOut := s.wireOut ++ (necPulses s.txFrame).take n, txIdx := BitVec.ofNat 7 n }

theorem afterPulses_zero {s : State} (hx : s.txIdx = 0#7) : s.afterPulses s.irTx 0 = s := by
  rw [State.afterPulses, List.take_zero, List.append_nil, ← hx]

theorem necPulses_getElem?_afterPulses (s : State) (level : Level) {n : Nat} (hn : n < 67) :
    (necPulses (s.afterPulses level n).txFrame)[(s.afterPulses level n).txIdx.toNat]? = some (necPulse s.txFrame n) := by
  have hidx : (BitVec.ofNat 7 n).toNat = n := Nat.mod_eq_of_lt (by omega)
  rw [State.afterPulses, hidx]
  exact necPulses_getElem? hn

theorem emit_afterPulses (s : State) (level : Level) {n : Nat} (hn : n < 67) :
    (s.afterPulses level n).emit (necPulse s.txFrame n) = s.afterPulses (necPulse s.txFrame n).level (n + 1) := by
  simp only [State.emit, State.afterPulses, List.take_add_one, necPulses_getElem? hn, Option.toList_some,
    List.append_assoc, BitVec.ofNat_add]

/-- Up to 66 pulse steps emit as many pulses, and the transmission goes on. -/
theorem execAll_txPulse {s : State} (hb : s.txBusy = true) (hx : s.txIdx = 0#7) {n : Nat} (hn : n ≤ 66) :
    ∃ level, execAll (List.replicate n .txPulse) s = .next (s.afterPulses level n) := by
  induction n with
  | zero => exact ⟨s.irTx, by rw [afterPulses_zero hx]; rfl⟩
  | succ n ih =>
    obtain ⟨level, hsent⟩ := ih (Nat.le_of_succ_le hn)
    have hidx : (s.afterPulses level n).txIdx.toNat < 66 := (Nat.mod_le n _).trans_lt hn
    have hp := necPulses_getElem?_afterPulses s level (n := n) (by omega)
    have hstep : exec .txPulse (s.afterPulses level n) = .next ((s.afterPulses level n).emit (necPulse s.txFrame n)) :=
      exec_txPulse_of_lt hb hp hidx
    rw [emit_afterPulses s level (by omega)] at hstep
    exact ⟨_, by rw [List.replicate_succ', execAll_append _ hsent, execAll_singleton, hstep]⟩

/-- The 67th pulse step ends the transmission. -/
theorem execAll_txPulse_all {s : State} (hb : s.txBusy = true) (hx : s.txIdx = 0#7) :
    ∃ level, execAll (List.replicate 67 .txPulse) s = .next (s.afterPulses level 67).transmissionEnd := by
  obtain ⟨level, hsent⟩ := execAll_txPulse hb hx (le_refl 66)
  have hp := necPulses_getElem?_afterPulses s level (n := 66) (by decide)
  have hstep : exec .txPulse (s.afterPulses level 66)
      = .next ((s.afterPulses level 66).emit (necPulse s.txFrame 66)).transmissionEnd := exec_txPulse_of_last hb hp rfl
  rw [emit_afterPulses s level (by decide)] at hstep
  exact ⟨_, by rw [List.replicate_succ', execAll_append _ hsent, execAll_singleton, hstep]⟩

/-- Settles O24: the pulse steps before the last go on; the last one ends the transmission, which leaves a capture unit that
is not receiving alone. -/
theorem transmissionEmitsExactlyItsFrame : Obligations.TransmissionEmitsExactlyItsFrame := by
  intro s hb hx
  refine ⟨fun n hn => ?_, ?_⟩
  · obtain ⟨level, hsent⟩ := execAll_txPulse hb hx (Nat.le_of_lt_succ hn)
    exact ⟨_, hsent, hb, rfl⟩
  · obtain ⟨level, hsent⟩ := execAll_txPulse_all hb hx
    obtain ⟨-, -, -, herr, hbusy, hout, hcode, -⟩ := (s.afterPulses level 67).transmissionEnd_frame
    refine ⟨_, hsent, hbusy, hout, ?_, herr, hcode, fun hc => ?_⟩
    · rw [transmissionEnd_wireOut, State.afterPulses, List.take_of_length_le (necPulses_length _).le]
    · rw [transmissionEnd_of_not_receiving (s := s.afterPulses level 67) hc]
      exact ⟨rfl, rfl, rfl⟩

end Sys2Proof.Machine
end

section
/-! PROOFS. The round trip (R203): counts within one tick of a frame's pulses lie in the decoder's bands, and a train of
pulses that fit the counter and the gap is captured whole. -/

namespace Sys2Proof.Machine

/-! ## The decoder's half -/

/-- R24: one tick of quantisation stays within the tolerance of every pulse of at least one unit. -/
theorem inBand_of_quantised {p : Params} {d : Ticks} {units : Nat} (hrt : RoundTripTicks p)
    (hunits : 1 ≤ units) (h : Quantised p d.toNat units) : inBand p d units = true := by
  obtain ⟨hhi, hlo⟩ : tickNs p d < units * 562500 + p.usecPerTick * 1000
      ∧ units * 562500 < tickNs p d + p.usecPerTick * 1000 := h
  have hmargin : 100 * (p.usecPerTick * 1000) ≤ p.tolPct * (units * 562500) :=
    calc 100 * (p.usecPerTick * 1000) ≤ p.tolPct * (1 * 562500) := by omega
      _ ≤ p.tolPct * (units * 562500) := by gcongr
  rw [inBand_iff, Nat.sub_mul, Nat.add_mul]
  omega

theorem one_le_necPulse_units (frame : Word) (k : Nat) : 1 ≤ (necPulse frame k).units := by
  simp only [necPulse]
  split_ifs <;> decide

/-- Each entry of a quantised train lies in the band of its pulse. -/
theorem inBand_necPulse_of_quantised {p : Params} {frame : Word} {train : List Ticks} (hrt : RoundTripTicks p)
    (h : List.Forall₂ (fun (d : Ticks) (q : Pulse) => Quantised p d.toNat q.units) train (necPulses frame))
    {k : Nat} (hk : k < 67) : inBand p (train.getD k 0#16) (necPulse frame k).units = true := by
  have hk' : k < train.length := h.length_eq ▸ hk
  have hpulse : (necPulses frame)[k] = necPulse frame k := by
    have hget := necPulses_getElem? (frame := frame) hk
    rwa [List.getElem?_eq_getElem (by exact hk), Option.some.injEq] at hget
  rw [List.getD_eq_getElem _ _ hk']
  exact inBand_of_quantised hrt (one_le_necPulse_units frame k) (hpulse ▸ h.get hk' hk)

/-- The NEC matcher reads a quantised train as its frame. -/
theorem matchNec_of_quantised {p : Params} {frame : Word} {train : List Ticks} (htol : p.tolPct ≤ 33)
    (hrt : RoundTripTicks p)
    (h : List.Forall₂ (fun (d : Ticks) (q : Pulse) => Quantised p d.toNat q.units) train (necPulses frame)) :
    matchNec p train = some { value := frame, address := none, bitCount := 32#8 } := by
  have hband {k : Nat} (hk : k < 67) := inBand_necPulse_of_quantised hrt h hk
  have hbits : ∀ i, i < 32 → inBand p (train.getD (2 + 2 * i) 0#16) 1 = true
      ∧ classifySpace p (train.getD (3 + 2 * i) 0#16) = some (frame.getLsbD i) := by
    intro i hi
    have hmark := hband (k := 2 + 2 * i) (by omega)
    have hspace := hband (k := 3 + 2 * i) (by omega)
    rw [necPulse_units_mark] at hmark
    rw [necPulse_units_space] at hspace
    exact ⟨hmark, ((spacesAreClassifiedByTheirBand p _ htol).1 _).mpr hspace⟩
  exact (necMatcherAcceptsExactlyNecTrains p train _).mpr
    ⟨h.length_eq.ge, hband (k := 0) (by decide), hband (k := 1) (by decide), hbits, hband (k := 66) (by decide), rfl, rfl⟩

/-- Settles O49: NEC is tried first. -/
theorem quantisedFrameDecodesToItself : Obligations.QuantisedFrameDecodesToItself := by
  intro p frame train hv hrt h
  obtain ⟨-, -, -, htol, ⟨-, hmin⟩, -⟩ := hv
  have hlen : p.minFrameLen ≤ train.length := hmin.trans h.length_eq.ge
  obtain ⟨-, -, hnec, -⟩ := decodeTakesTheFirstAcceptingMatcher p train
  exact hnec _ hlen (matchNec_of_quantised htol hrt h)

/-! ## One sample -/

section Sample
variable {s : State} (hb : s.txBusy = false)
include hb

/-- R224: a mark in Idle begins a frame. -/
theorem exec_sample_of_idle (hc : s.capState = .idle) :
    exec (.sample true) s = .next { s with capState := .receiving, capLevel := true, capCnt := 1#16 } := by
  show execSample true s = _
  simp [execSample, hb, hc]

/-- R223: a sample at the level being timed counts. -/
theorem exec_sample_of_level {mark : Level} (hc : s.capState = .receiving) (hl : s.capLevel = mark) :
    exec (.sample mark) s = .next s.countSample := by
  show execSample mark s = _
  simp [execSample, hb, hc, hl]

/-- R225: a sample at the other level is an edge. -/
theorem exec_sample_of_edge {mark : Level} (hc : s.capState = .receiving) (hl : s.capLevel = !mark) :
    exec (.sample mark) s = .next (s.recordEdge mark) := by
  show execSample mark s = _
  simp [execSample, hb, hc, hl]

end Sample

/-- R227: a held frame takes no sample. -/
theorem exec_sample_of_frameComplete {s : State} (hc : s.capState = .frameComplete) (mark : Level) :
    exec (.sample mark) s = .next s := by
  show execSample mark s = _
  simp [execSample, hc]

theorem execAll_samples_of_frameComplete {s : State} (hc : s.capState = .frameComplete) (stimulus : List Level) :
    execAll (sampleSteps stimulus) s = .next s := by
  induction stimulus with
  | nil => rfl
  | cons mark rest ih => exact (execAll_cons _ (exec_sample_of_frameComplete hc mark)).trans ih

/-! ## Timing a pulse -/

/-- With the build `p` and no transmission, the capture unit has recorded the pulses `done` of a frame and has counted `count`
ticks of the next one, at the level `mark` (R34, R35, R40). -/
structure State.Times (s : State) (p : Params) (mark : Level) (done : List Nat) (count : Nat) : Prop where
  cfg : s.cfg = p
  txBusy : s.txBusy = false
  capState : s.capState = .receiving
  capLevel : s.capLevel = mark
  ovf : s.ovf = false
  buf : s.buf.map BitVec.toNat = done
  capCnt : s.capCnt.toNat = count

theorem sampleSteps_append (a b : List Level) : sampleSteps (a ++ b) = sampleSteps a ++ sampleSteps b :=
  List.map_append

/-- The stimulus `stimulus` takes `s` to a state that times such a pulse. -/
def State.LeadsToTiming (s : State) (stimulus : List Level) (p : Params) (mark : Level) (done : List Nat) (count : Nat) :
    Prop :=
  ∃ t, execAll (sampleSteps stimulus) s = .next t ∧ t.Times p mark done count

section Timing
variable {s : State} {p : Params} {mark : Level} {done : List Nat} {count : Nat}

theorem State.LeadsToTiming.append {a b : List Level} {mark' : Level} {done' : List Nat} {count' : Nat}
    (h : s.LeadsToTiming a p mark done count)
    (hb : ∀ t : State, t.Times p mark done count → t.LeadsToTiming b p mark' done' count') :
    s.LeadsToTiming (a ++ b) p mark' done' count' := by
  obtain ⟨t, ht, htimes⟩ := h
  obtain ⟨u, hu, hutimes⟩ := hb t htimes
  exact ⟨u, by rw [sampleSteps_append, execAll_append _ ht, hu], hutimes⟩

/-- R224: the first mark of a frame. -/
theorem leadsToTiming_of_idle (hok : s.CaptureOk) (hc : s.capState = .idle) (hb : s.txBusy = false) :
    s.LeadsToTiming [true] s.cfg true [] 1 := by
  obtain ⟨hbuf, hovf⟩ := (captureOk_idle_iff hc).mp hok
  exact ⟨_, (execAll_singleton _ _).trans (exec_sample_of_idle hb hc), rfl, hb, rfl, rfl, hovf, by simp [hbuf], rfl⟩

/-- R225: an edge that does not fill the buffer records the pulse before it. -/
theorem State.Times.edge (h : s.Times p (!mark) done count) (hroom : done.length + 1 < p.rawbuf) :
    s.LeadsToTiming [mark] p mark (done ++ [count]) 1 := by
  have hlen : s.buf.length = done.length := by rw [← h.buf, List.length_map]
  obtain ⟨hfull, -⟩ | ⟨-, he⟩ := recordEdge_cases s mark
  · rw [hlen, h.cfg] at hfull
    omega
  · refine ⟨_, (execAll_singleton _ _).trans (exec_sample_of_edge h.txBusy h.capState h.capLevel), ?_⟩
    rw [he]
    exact ⟨h.cfg, h.txBusy, h.capState, rfl, h.ovf, by simp [h.buf, h.capCnt], rfl⟩

theorem State.Times.countTick_toNat (h : s.Times p mark done count) (hmax : count < 65535) :
    (countTick s.capCnt).toNat = count + 1 := by
  rw [Machine.countTick_toNat, h.capCnt]
  omega

/-- R223: a pulse that stays below the counter's limit, and a space below the gap, is counted tick by tick. -/
theorem State.Times.ticks {n : Nat} (h : s.Times p mark done count) (hmax : count + n ≤ 65535)
    (hgap : mark = false → count + n < p.gapTicks) : s.LeadsToTiming (drive mark n) p mark done (count + n) := by
  induction n generalizing s count with
  | zero => exact ⟨s, rfl, h⟩
  | succ n ih =>
    have hnext : (countTick s.capCnt).toNat = count + 1 := h.countTick_toNat (by omega)
    have hstep : s.LeadsToTiming [mark] p mark done (count + 1) := by
      refine ⟨_, (execAll_singleton _ _).trans (exec_sample_of_level h.txBusy h.capState h.capLevel), ?_⟩
      obtain ⟨hspace, hlong, -⟩ | ⟨-, he⟩ := countSample_cases s
      · rw [h.cfg, hnext] at hlong
        have := hgap (h.capLevel.symm.trans hspace)
        omega
      · rw [he]
        exact ⟨h.cfg, h.txBusy, h.capState, h.capLevel, h.ovf, h.buf, hnext⟩
    have hsum : count + (n + 1) = count + 1 + n := by omega
    rw [hsum] at hmax hgap ⊢
    exact hstep.append (b := drive mark n) fun t ht => ih ht hmax hgap

/-- A pulse within the limits is timed whole from its first sample on. -/
theorem State.LeadsToTiming.pulse {d : Nat} (h : s.LeadsToTiming [mark] p mark done 1) (hmin : 1 ≤ d) (hmax : d ≤ 65535)
    (hgap : mark = false → d < p.gapTicks) : s.LeadsToTiming (drive mark d) p mark done d := by
  obtain ⟨n, rfl⟩ := Nat.exists_eq_add_of_le hmin
  rw [show drive mark (1 + n) = [mark] ++ drive mark n from List.replicate_add 1 n mark]
  exact h.append fun t ht => ht.ticks hmax hgap

/-- R223: the sample with which a space reaches the gap completes the frame, and the space is not recorded. -/
theorem State.Times.complete (h : s.Times p false done count) (hmax : count < 65535) (hgap : p.gapTicks ≤ count + 1) :
    ∃ t, exec (.sample false) s = .next t ∧ t.capState = .frameComplete ∧ t.cfg = p ∧ t.ovf = false
      ∧ t.buf.map BitVec.toNat = done := by
  refine ⟨_, exec_sample_of_level h.txBusy h.capState h.capLevel, ?_⟩
  obtain ⟨-, -, he⟩ | ⟨hmore, -⟩ := countSample_cases s
  · rw [he]
    exact ⟨rfl, h.cfg, h.ovf, h.buf⟩
  · have hless := hmore.resolve_left (by simp [h.capLevel])
    rw [h.countTick_toNat hmax, h.cfg] at hless
    omega

end Timing

/-! ## A whole frame -/

/-- A count that the capture unit records as it is for the pulse `q`: within the counter, and a space below the gap. -/
def FitsPulse (p : Params) (d : Nat) (q : Pulse) : Prop :=
  1 ≤ d ∧ d ≤ 65535 ∧ (q.level = false → d < p.gapTicks)

section Frame
variable {s : State} {p : Params} {counts done : List Nat} {pulses : List Pulse} {level last : Level}

/-- A pulse and those that follow it, alternating with it, are recorded; the last of them is being timed. -/
theorem State.Times.train {count count' : Nat} {done' : List Nat} (h : s.Times p level done count)
    (hfits : List.Forall₂ (FitsPulse p) counts pulses)
    (halt : (level :: pulses.map Pulse.level).IsChain (· ≠ ·))
    (hlast : (level :: pulses.map Pulse.level).getLast? = some last)
    (hroom : done.length + counts.length < p.rawbuf) (hall : done' ++ [count'] = done ++ count :: counts) :
    s.LeadsToTiming (driveTrain (!level) counts) p last done' count' := by
  induction hfits generalizing s level done count with
  | nil =>
    obtain rfl : level = last := by simpa using hlast
    obtain ⟨rfl, rfl⟩ : done' = done ∧ count' = count := by simpa using hall
    exact ⟨s, rfl, h⟩
  | @cons d q counts pulses hd hrest ih =>
    obtain ⟨hne, halt⟩ := List.isChain_cons_cons.mp halt
    have hq : q.level = !level := Bool.eq_not.mpr hne.symm
    rw [List.map_cons, List.getLast?_cons_cons, hq] at hlast
    rw [hq] at halt
    obtain ⟨hmin, hmax, hgap⟩ := hd
    rw [hq] at hgap
    rw [List.length_cons] at hroom
    have hpulse : s.LeadsToTiming (drive (!level) d) p (!level) (done ++ [count]) d := by
      refine (State.Times.edge ?_ (by omega)).pulse hmin hmax hgap
      rwa [Bool.not_not]
    refine hpulse.append (b := driveTrain (!!level) counts) fun t ht => ih ht halt hlast ?_ ?_
    · rw [List.length_append, List.length_singleton]
      omega
    · rw [hall, List.append_assoc, List.singleton_append]

/-- R223: after the last mark a space that reaches the gap completes the frame, which is then held whatever follows. -/
theorem State.Times.gap {count gap : Nat} (h : s.Times p true done count) (hv : p.Valid)
    (hroom : done.length + 1 < p.rawbuf) (hgap : p.gapTicks ≤ gap) :
    ∃ t, execAll (sampleSteps (drive false gap)) s = .next t ∧ t.capState = .frameComplete ∧ t.cfg = p ∧ t.ovf = false
      ∧ t.buf.map BitVec.toNat = done ++ [count] := by
  have hgap1 : 1 < p.gapTicks := one_lt_gapTicks hv
  obtain ⟨-, -, ⟨-, hgapMax⟩, -⟩ := hv
  obtain ⟨rest, rfl⟩ : ∃ rest, gap = p.gapTicks - 1 + (1 + rest) := ⟨gap - p.gapTicks, by omega⟩
  obtain ⟨t, ht, htimes⟩ : s.LeadsToTiming (drive false (p.gapTicks - 1)) p false (done ++ [count]) (p.gapTicks - 1) :=
    (State.Times.edge (mark := false) h hroom).pulse (by omega) (by omega) fun _ => by omega
  obtain ⟨u, hu, hcap, hcfg, hovf, hbuf⟩ := htimes.complete (by omega) (by omega)
  have hend : execAll (sampleSteps (drive false (1 + rest))) t = .next u := by
    rw [Nat.add_comm]
    exact (execAll_cons _ hu).trans (execAll_samples_of_frameComplete hcap (drive false rest))
  refine ⟨u, ?_, hcap, hcfg, hovf, hbuf⟩
  rw [drive, List.replicate_add, sampleSteps_append]
  exact (execAll_append _ ht).trans hend

/-- R221 to R225: from Idle, alternating pulses that begin and end with a mark and fit counter, gap and buffer are captured
whole by the gap after them. -/
theorem exists_frameComplete_of_train {gap : Nat} (hv : s.cfg.Valid) (hok : s.CaptureOk) (hc : s.capState = .idle)
    (hb : s.txBusy = false) (hfits : List.Forall₂ (FitsPulse s.cfg) counts pulses)
    (halt : (pulses.map Pulse.level).IsChain (· ≠ ·)) (hfirst : (pulses.map Pulse.level).head? = some true)
    (hlast : (pulses.map Pulse.level).getLast? = some true) (hroom : counts.length < s.cfg.rawbuf)
    (hgap : s.cfg.gapTicks ≤ gap) :
    ∃ t, execAll (sampleSteps (driveTrain true counts ++ drive false gap)) s = .next t ∧ t.capState = .frameComplete
      ∧ t.cfg = s.cfg ∧ t.ovf = false ∧ t.buf.map BitVec.toNat = counts := by
  match hfits with
  | .nil => simp at hfirst
  | .cons (a := d) (b := q) (l₁ := rest) (l₂ := later) hd hrest =>
    have hq : q.level = true := by simpa using hfirst
    obtain ⟨hmin, hmax, hspace⟩ := hd
    rw [List.map_cons, hq] at halt hlast
    have hall : (d :: rest).dropLast ++ [(d :: rest).getLast (List.cons_ne_nil _ _)] = d :: rest :=
      List.dropLast_append_getLast _
    have hmark : s.LeadsToTiming (drive true d) s.cfg true [] d :=
      (leadsToTiming_of_idle hok hc hb).pulse hmin hmax (hq ▸ hspace)
    obtain ⟨t, ht, htimes⟩ := hmark.append (b := driveTrain false rest) fun t ht =>
      ht.train hrest halt hlast (by simpa using Nat.lt_of_succ_lt hroom) hall
    have hdone : (d :: rest).dropLast.length + 1 < s.cfg.rawbuf := by simpa using hroom
    obtain ⟨u, hu, hcap, hcfg, hovf, hbuf⟩ := htimes.gap hv hdone hgap
    refine ⟨u, ?_, hcap, hcfg, hovf, hbuf.trans hall⟩
    rw [sampleSteps_append]
    exact (execAll_append _ ht).trans hu

end Frame

/-! ## A transmitted frame -/

theorem necPulses_alternate (frame : Word) : ((necPulses frame).map Pulse.level).IsChain (· ≠ ·) := by
  rw [necPulses_levels, List.isChain_map, List.isChain_range_succ]
  intro k _
  rw [Ne, decide_eq_decide]
  omega

/-- The pulses of a frame have between 1 and 16 units, the spaces at most 8 (R191). -/
theorem units_of_mem_necPulses {frame : Word} {q : Pulse} (hq : q ∈ necPulses frame) :
    1 ≤ q.units ∧ q.units ≤ 16 ∧ (q.level = false → q.units ≤ 8) := by
  rw [necPulses_eq_map, List.mem_map] at hq
  obtain ⟨k, -, rfl⟩ := hq
  refine ⟨one_le_necPulse_units frame k, ?_⟩
  simp only [necPulse]
  split_ifs <;> simp_all

/-- R24, R21: a quantised pulse of a frame fits counter and gap. -/
theorem fitsPulse_of_quantised {p : Params} {frame : Word} {d : Nat} {q : Pulse} (hv : p.Valid) (hrt : RoundTripTicks p)
    (hq : q ∈ necPulses frame) (h : Quantised p d q.units) : FitsPulse p d q := by
  obtain ⟨hlo, hhi, hspace⟩ := units_of_mem_necPulses hq
  obtain ⟨husec, -, ⟨hgap, -⟩, htol, -⟩ := hv
  obtain ⟨hlt, hgt⟩ : d * p.usecPerTick * 1000 < q.units * 562500 + p.usecPerTick * 1000
      ∧ q.units * 562500 < d * p.usecPerTick * 1000 + p.usecPerTick * 1000 := h
  have hshort : 200 * p.usecPerTick ≤ 1125 * p.tolPct := hrt
  refine ⟨?_, ?_, fun hlevel => ?_⟩
  · by_contra hzero
    obtain rfl : d = 0 := by omega
    omega
  · by_contra hmax
    have hlong : 65536 * p.usecPerTick ≤ d * p.usecPerTick := Nat.mul_le_mul_right _ (by omega)
    omega
  · have hunits := hspace hlevel
    by_contra hlong
    have hreach : p.gapTicks * p.usecPerTick ≤ d * p.usecPerTick := Nat.mul_le_mul_right _ (by omega)
    omega

theorem forall₂_fitsPulse_of_quantised {p : Params} {frame : Word} {counts : List Nat} (hv : p.Valid)
    (hrt : RoundTripTicks p)
    (h : List.Forall₂ (fun (d : Nat) (q : Pulse) => Quantised p d q.units) counts (necPulses frame)) :
    List.Forall₂ (FitsPulse p) counts (necPulses frame) :=
  List.forall₂_iff_get.mpr ⟨h.length_eq, fun i hi hi' =>
    fitsPulse_of_quantised hv hrt (List.get_mem _ ⟨i, hi'⟩) (h.get hi hi')⟩

/-- Settles O50: the frame's pulses alternate from mark to mark and fit, so they are captured whole, and the buffer they fill
decodes to the frame. -/
theorem captureAndDecodeOfATransmittedFrame : Obligations.CaptureAndDecodeOfATransmittedFrame := by
  intro s code counts gap hv hrt hok hc hb h hgap
  have hlen : counts.length = 67 := h.length_eq.trans (necPulses_length _)
  have hroom : counts.length < s.cfg.rawbuf := by
    obtain ⟨-, ⟨hraw, -⟩, -⟩ := hv
    omega
  obtain ⟨t, ht, hcap, hcfg, hovf, rfl⟩ := exists_frameComplete_of_train hv hok hc hb
    (forall₂_fitsPulse_of_quantised hv hrt h) (necPulses_alternate _) rfl rfl hroom hgap
  have hdecode := quantisedFrameDecodesToItself s.cfg (necFrame code) t.buf hv hrt (List.forall₂_map_left_iff.mp h)
  have hexec := exec_decode_of_ready ((ready_iff t).mpr (.inl hcap))
  rw [hcfg, hovf, hdecode] at hexec
  exact ⟨t, _, ht, hcap, rfl, by rwa [List.length_map] at hlen, hexec, rfl, rfl, rfl, rfl, rfl, rfl, rfl⟩

end Sys2Proof.Machine
end

section
/-! PROOFS. The capture unit (R220 to R231): SAMPLE in each of its states, the transitions of the capture state and the
writers of the buffer by cases on `Effect`, and the mark that does not end, under every order of turns (log 5, 16). -/

namespace Sys2Proof.Machine

/-! ## A sample -/

/-- R224: a space in Idle is no frame. -/
theorem exec_sample_of_idle_space {s : State} (hc : s.capState = .idle) : exec (.sample false) s = .next s := by
  show execSample false s = _
  simp [execSample, hc]

/-- R226, R227: a full buffer takes no sample. -/
theorem exec_sample_of_overflow {s : State} (hc : s.capState = .overflow) (mark : Level) :
    exec (.sample mark) s = .next s := by
  show execSample mark s = _
  simp [execSample, hc]

/-- R220, R228: no sample is taken during a transmission (log 14). -/
theorem exec_sample_of_txBusy {s : State} (hb : s.txBusy = true) (mark : Level) : exec (.sample mark) s = .next s :=
  if_pos hb

theorem countSample_of_timing {s : State}
    (h : s.capLevel = true ∨ (countTick s.capCnt).toNat < s.cfg.gapTicks) :
    s.countSample = { s with capCnt := countTick s.capCnt } := by
  obtain ⟨hspace, hgap, -⟩ | ⟨-, he⟩ := countSample_cases s
  · exact absurd hgap (Nat.not_le.mpr (h.resolve_left (ne_true_of_eq_false hspace)))
  · exact he

/-- Settles O4: it is the meaning of RESUME. -/
theorem resumeEmptiesTheCaptureUnit : Obligations.ResumeEmptiesTheCaptureUnit := fun _ => rfl

/-- Settles O27: the two levels in Idle. -/
theorem sampleInIdle : Obligations.SampleInIdle :=
  fun _ hb hc => ⟨exec_sample_of_idle hb hc, exec_sample_of_idle_space hc⟩

/-- Settles O28: the count is `countTick`, and the space that reaches the gap is the only count that ends a frame. -/
theorem sampleAtTheSameLevelCounts : Obligations.SampleAtTheSameLevelCounts := by
  intro s hb hc
  refine ⟨countTick s.capCnt, countTick_toNat _, fun htiming => ?_, fun hspace hgap => ?_⟩
  · rw [exec_sample_of_level hb hc rfl, countSample_of_timing htiming]
  · rw [exec_sample_of_level hb hc rfl, State.countSample, if_pos ⟨hspace, hgap⟩]

/-- Settles O29: the edge, into a buffer with room and into the last place. -/
theorem sampleAtAnEdgeRecords : Obligations.SampleAtAnEdgeRecords := by
  intro s hb hc
  rw [exec_sample_of_edge hb hc (Bool.not_not _).symm]
  exact ⟨fun hroom => by rw [State.recordEdge, if_neg hroom], fun hfull => by rw [State.recordEdge, if_pos hfull]⟩

/-- Settles O31: the two held snapshots and the transmission in progress. -/
theorem heldOrSuspendedCaptureIgnoresSamples : Obligations.HeldOrSuspendedCaptureIgnoresSamples := by
  intro mark s h
  obtain hc | hc | hb := h
  · exact exec_sample_of_frameComplete hc mark
  · exact exec_sample_of_overflow hc mark
  · exact exec_sample_of_txBusy hb mark

/-! ## The transitions of the capture state -/

section Transitions
variable {s : State}

/-- R223: a count changes the capture state only by completing a frame. -/
theorem countSample_capState_changed (h : s.countSample.capState ≠ s.capState) :
    s.countSample.capState = .frameComplete ∧ s.capLevel = false ∧ s.cfg.gapTicks ≤ s.capCnt.toNat + 1 := by
  obtain ⟨hspace, hgap, he⟩ | ⟨-, he⟩ := countSample_cases s
  · rw [countTick_toNat] at hgap
    exact ⟨by rw [he], hspace, hgap.trans (Nat.min_le_left _ _)⟩
  · exact absurd (by rw [he]) h

/-- R226: an edge changes the capture state only by filling the buffer. -/
theorem recordEdge_capState_changed {mark : Level} (h : (s.recordEdge mark).capState ≠ s.capState) :
    (s.recordEdge mark).capState = .overflow ∧ (s.recordEdge mark).buf.length = s.cfg.rawbuf := by
  obtain ⟨hfull, he⟩ | ⟨-, he⟩ := recordEdge_cases s mark
  · exact ⟨by rw [he], by simpa [he] using hfull⟩
  · exact absurd (by rw [he]) h

/-- R228: the end of a transmission changes the capture state only from Receiving, to Idle. -/
theorem transmissionEnd_capState_changed (h : s.transmissionEnd.capState ≠ s.capState) :
    s.transmissionEnd.capState = .idle ∧ s.capState = .receiving := by
  obtain ⟨hc, he⟩ | ⟨-, he⟩ := transmissionEnd_cases s
  · exact ⟨by rw [he]; rfl, hc⟩
  · exact absurd (by rw [he]) h

/-- R228: the end of a transmission changes the buffer only in Receiving, and empties it. -/
theorem transmissionEnd_buf_changed (h : s.transmissionEnd.buf ≠ s.buf) :
    s.transmissionEnd.buf = [] ∧ s.capState = .receiving := by
  obtain ⟨hc, he⟩ | ⟨-, he⟩ := transmissionEnd_cases s
  · exact ⟨by rw [he]; rfl, hc⟩
  · exact absurd (by rw [he]) h

end Transitions

section Writers
variable {i : Instr} {s t : State}

/-- What empties the capture unit: reset, RESUME, and the end of a transmission during Receiving (R228, R229, R330). -/
def EmptiesCapture (i : Instr) (s t : State) : Prop :=
  i = .rst ∨ commandOp i = some 1#4 ∨ (EndsTransmission i s ∧ t.txBusy = false ∧ s.capState = .receiving)

/-- R221: the four ways in which the capture state changes. -/
theorem Effect.capState_changed (h : Effect i s t) (hne : t.capState ≠ s.capState) :
    (t.capState = .idle ∧ EmptiesCapture i s t)
    ∨ (t.capState = .receiving ∧ i = .sample true ∧ s.capState = .idle)
    ∨ (t.capState = .frameComplete ∧ i = .sample false ∧ s.capState = .receiving ∧ s.capLevel = false
        ∧ s.cfg.gapTicks ≤ s.capCnt.toNat + 1)
    ∨ (t.capState = .overflow ∧ i = .sample (!s.capLevel) ∧ s.capState = .receiving
        ∧ t.buf.length = s.cfg.rawbuf) := by
  cases h with
  | reset hi => exact .inl ⟨rfl, .inl hi⟩
  | resumed hi => exact .inl ⟨rfl, .inr (.inl hi)⟩
  | lastPulse p hi hb _ hx =>
    obtain ⟨hidle, hc⟩ := transmissionEnd_capState_changed (s := s.emit p) hne
    exact .inl ⟨hidle, .inr (.inr ⟨⟨hb, .inl ⟨hi, hx⟩⟩, by simp, hc⟩)⟩
  | ended hi hb hx =>
    obtain ⟨hidle, hc⟩ := transmissionEnd_capState_changed hne
    exact .inl ⟨hidle, .inr (.inr ⟨⟨hb, .inr ⟨hi, hx⟩⟩, by simp, hc⟩)⟩
  | started hi _ hc => exact .inr (.inl ⟨rfl, hi, hc⟩)
  | counted hi _ hc =>
    obtain ⟨hcomplete, hspace, hgap⟩ := countSample_capState_changed hne
    exact .inr (.inr (.inl ⟨hcomplete, hspace ▸ hi, hc, hspace, hgap⟩))
  | recorded hi _ hc =>
    obtain ⟨hover, hfull⟩ := recordEdge_capState_changed hne
    exact .inr (.inr (.inr ⟨hover, hi, hc, hfull⟩))
  | _ => simp at hne

/-- R225: an edge appends to the buffer, and whatever else changes it empties it. -/
theorem Effect.buf_changed (h : Effect i s t) (hne : t.buf ≠ s.buf) :
    (∃ mark, i = .sample mark ∧ t.buf = s.buf ++ [s.capCnt]) ∨ (t.buf = [] ∧ EmptiesCapture i s t) := by
  cases h with
  | recorded hi => exact .inl ⟨_, hi, by simp⟩
  | reset hi => exact .inr ⟨rfl, .inl hi⟩
  | resumed hi => exact .inr ⟨rfl, .inr (.inl hi)⟩
  | lastPulse p hi hb _ hx =>
    obtain ⟨hempty, hc⟩ := transmissionEnd_buf_changed (s := s.emit p) hne
    exact .inr ⟨hempty, .inr (.inr ⟨⟨hb, .inl ⟨hi, hx⟩⟩, by simp, hc⟩)⟩
  | ended hi hb hx =>
    obtain ⟨hempty, hc⟩ := transmissionEnd_buf_changed hne
    exact .inr ⟨hempty, .inr (.inr ⟨⟨hb, .inr ⟨hi, hx⟩⟩, by simp, hc⟩)⟩
  | _ => simp at hne

end Writers

/-- Settles O30: the edge and the three effects that empty the buffer are the only ones that change it. -/
theorem bufferEntriesAreWrittenOnce : Obligations.BufferEntriesAreWrittenOnce :=
  fun _ _ _ h hne => (exec_effect h).buf_changed hne

/-- Settles O33: each of the four ways in which the capture state changes enters a state of its own. -/
theorem captureStateTransitions : Obligations.CaptureStateTransitions := by
  intro i s t h hne
  obtain ⟨hc, hevent⟩ | ⟨hc, hevent⟩ | ⟨hc, hevent⟩ | ⟨hc, hevent⟩ := (exec_effect h).capState_changed hne
  · exact ⟨fun _ => hevent, by simp [hc], by simp [hc], by simp [hc]⟩
  · exact ⟨by simp [hc], fun _ => hevent, by simp [hc], by simp [hc]⟩
  · exact ⟨by simp [hc], by simp [hc], fun _ => hevent, by simp [hc]⟩
  · exact ⟨by simp [hc], by simp [hc], by simp [hc], fun _ => hevent⟩

/-! ## A mark that does not end -/

/-- R223, R231: while a mark is timed, samples of mark only count, up to 65535. -/
theorem execAll_samples_of_mark (n : Nat) {s : State} (hb : s.txBusy = false) (hc : s.capState = .receiving)
    (hl : s.capLevel = true) :
    ∃ c : Ticks, execAll (sampleSteps (drive true n)) s = .next { s with capCnt := c }
      ∧ c.toNat = min (s.capCnt.toNat + n) 65535 := by
  induction n generalizing s with
  | zero =>
    have hmax := s.capCnt.isLt
    exact ⟨s.capCnt, rfl, by omega⟩
  | succ n ih =>
    obtain ⟨c, hrest, hcount⟩ := ih (s := { s with capCnt := countTick s.capCnt }) hb hc hl
    have hfirst : exec (.sample true) s = .next { s with capCnt := countTick s.capCnt } := by
      rw [exec_sample_of_level hb hc hl, countSample_of_timing (.inl hl)]
    refine ⟨c, (execAll_cons _ hfirst).trans hrest, ?_⟩
    rw [hcount, countTick_toNat]
    omega

/-- A mark is being timed, the environment holds it for ever (log 16), no reset is to come, and the host does nothing or polls
READY. -/
structure State.EndlessMark (s : State) : Prop where
  txBusy : s.txBusy = false
  capState : s.capState = .receiving
  capLevel : s.capLevel = true
  irIn : s.irIn = []
  irTail : s.irTail = .hold true
  noReset : .rst ∉ s.agenda
  host : (s.script = [] ∧ s.host.pc = .off) ∨ ∃ rest, s.script = HostOp.waitready :: rest

/-- What an endless mark lets change: the count, what the host has read, and the schedule. -/
def State.stillTiming (s : State) (count : Ticks) (reads : List Word) (agenda : List Turn) (hostNext : Bool) : State :=
  { s with capCnt := count, reads := reads, agenda := agenda, hostNext := hostNext }

section EndlessMark
variable {s : State}

theorem State.EndlessMark.stillTiming (h : s.EndlessMark) {agenda : List Turn} (hrst : .rst ∉ agenda) (count : Ticks)
    (reads : List Word) (hostNext : Bool) : (s.stillTiming count reads agenda hostNext).EndlessMark :=
  ⟨h.txBusy, h.capState, h.capLevel, h.irIn, h.irTail, hrst, h.host⟩

/-- R113: an idle host changes nothing, and a poll of READY reads STATUS and waits on. -/
theorem State.EndlessMark.exists_hostTurn (h : s.EndlessMark) :
    ∃ reads, hostTurn s = .next (s.stillTiming s.capCnt reads s.agenda s.hostNext) := by
  obtain ⟨hscript, hoff⟩ | ⟨rest, hscript⟩ := h.host
  · refine ⟨s.reads, ?_⟩
    rw [hostTurn, hscript]
    simp only [softwareStep, hoff, LoopPc.request, HostSoftware.think]
    rfl
  · have hwait : ¬ s.statusWord &&& 0x40#32 = 0x40#32 := by
      rw [statusWord_and_ready_iff, h.capState]
      decide
    refine ⟨s.reads ++ [s.statusWord], ?_⟩
    rw [hostTurn, hscript]
    simp only [HostOp.waitready, scriptStep_poll_status, if_neg hwait]
    rfl

/-- R220, R223: a tick counts the mark that the environment holds. -/
theorem State.EndlessMark.tickTurn_eq (h : s.EndlessMark) :
    tickTurn s = .next (s.stillTiming (countTick s.capCnt) s.reads s.agenda s.hostNext) := by
  rw [tickTurn, if_neg (ne_true_of_eq_false h.txBusy), nextLevel_of_hold h.irIn h.irTail,
    exec_sample_of_level h.txBusy h.capState h.capLevel, countSample_of_timing (.inl h.capLevel)]
  rfl

/-- R198, R199: the transmitter has nothing to send (log 14). -/
theorem txTurn_of_not_busy (hb : s.txBusy = false) : txTurn s = .next s := by
  have hpulse : exec .txPulse s = .next s := if_neg (ne_true_of_eq_false hb)
  have hend : exec .txEnd s = .next s := if_neg (by simp [hb])
  rw [txTurn, hpulse, hend, ite_self]

/-- R86: a move of any agent but reset. -/
theorem State.EndlessMark.exists_runTurn (h : s.EndlessMark) {turn : Turn} (hturn : turn ≠ .rst) :
    ∃ count reads, runTurn turn s = .next (s.stillTiming count reads s.agenda s.hostNext) := by
  cases turn with
  | host => exact ⟨s.capCnt, h.exists_hostTurn⟩
  | tick => exact ⟨_, _, h.tickTurn_eq⟩
  | tx => exact ⟨s.capCnt, s.reads, txTurn_of_not_busy h.txBusy⟩
  | rst => exact absurd rfl hturn
  | unseen => exact ⟨s.capCnt, s.reads, if_neg (ne_true_of_eq_false h.txBusy)⟩

/-- Without a reset on the agenda the next move is none, and none is on the agenda after it. -/
theorem nextTurn_ne_rst (h : .rst ∉ s.agenda) : s.nextTurn ≠ .rst ∧ .rst ∉ s.passTurn.agenda := by
  cases ha : s.agenda with
  | nil =>
    simp only [State.nextTurn, State.passTurn, ha]
    exact ⟨by split_ifs <;> decide, List.not_mem_nil⟩
  | cons turn later =>
    rw [ha, List.mem_cons, not_or] at h
    simp only [State.nextTurn, State.passTurn, ha]
    exact ⟨Ne.symm h.1, h.2⟩

/-- Passing the turn changes the schedule alone. -/
theorem stillTiming_passTurn (s : State) (count : Ticks) (reads : List Word) (agenda : List Turn) (hostNext : Bool) :
    s.passTurn.stillTiming count reads agenda hostNext = s.stillTiming count reads agenda hostNext := by
  unfold State.passTurn
  split <;> rfl

theorem State.EndlessMark.passTurn (h : s.EndlessMark) : s.passTurn.EndlessMark := by
  obtain ⟨-, hagenda⟩ := nextTurn_ne_rst h.noReset
  have hstill := h.stillTiming hagenda s.passTurn.capCnt s.passTurn.reads s.passTurn.hostNext
  rwa [← stillTiming_passTurn] at hstill

/-- R86, R339: a step of the machine, whose turn it ever is (log 5). -/
theorem State.EndlessMark.exists_step (h : s.EndlessMark) :
    ∃ count reads agenda hostNext, step s = .next (s.stillTiming count reads agenda hostNext) ∧ .rst ∉ agenda := by
  obtain ⟨hturn, hagenda⟩ := nextTurn_ne_rst h.noReset
  obtain ⟨count, reads, hmove⟩ := h.passTurn.exists_runTurn hturn
  rw [stillTiming_passTurn] at hmove
  exact ⟨count, reads, _, _, hmove, hagenda⟩

/-- R231, R339: no run under an endless mark leaves Receiving. -/
theorem State.EndlessMark.exists_run (h : s.EndlessMark) (n : Nat) :
    ∃ count reads agenda hostNext, run n s = .next (s.stillTiming count reads agenda hostNext) := by
  induction n generalizing s with
  | zero => exact ⟨s.capCnt, s.reads, s.agenda, s.hostNext, rfl⟩
  | succ n ih =>
    obtain ⟨count, reads, agenda, hostNext, hstep, hrst⟩ := h.exists_step
    rw [run, hstep]
    exact ih (h.stillTiming hrst count reads hostNext)

end EndlessMark

/-- Settles O32: every sample of the mark counts, and under an endless one every turn leaves Receiving, the buffer and the
host's program as they are. -/
theorem neverEndingMarkStaysReceiving : Obligations.NeverEndingMarkStaysReceiving := by
  intro n s hb hc hl
  refine ⟨execAll_samples_of_mark n hb hc hl, fun hin htail hrst hhost => ?_⟩
  have hmark : s.EndlessMark := ⟨hb, hc, hl, hin, htail, hrst, hhost⟩
  obtain ⟨count, reads, agenda, hostNext, hrun⟩ := hmark.exists_run n
  refine ⟨_, hrun, hc, rfl, rfl, fun hover => ?_⟩
  obtain ⟨-, -, -, hnot, -⟩ := hover
  exact hnot hc

end Sys2Proof.Machine
end

section
/-! PROOFS. The surrounding software's send discipline (R260, R267; log 8): the software's SEND finds no transmission in
progress and begins the wait for its end, and no other move starts a transmission or flags a command. -/

namespace Sys2Proof.Machine

/-! ## Moves that send nothing -/

/-- SEND and the reserved commands, an ill-formed reserved term among them: the instructions that can set `tx_busy` or
`cmd_err` (R132, R196, R197). -/
def isSendOrReserved (i : Instr) : Bool := !i.WellFormed || (commandOp i).any (3 ≤ ·.toNat)

/-- `t` comes from `s` with the host's software and program untouched, no transmission started and no command flagged. -/
structure State.SendsNothing (s t : State) : Prop where
  host : t.host = s.host
  script : t.script = s.script
  txBusy : t.txBusy = true → s.txBusy = true
  cmdErr : t.cmdErr = true → s.cmdErr = true

theorem State.SendsNothing.refl (s : State) : s.SendsNothing s := ⟨rfl, rfl, id, id⟩

theorem State.SendsNothing.trans {s t u : State} (h : s.SendsNothing t) (h' : t.SendsNothing u) : s.SendsNothing u :=
  ⟨h'.host.trans h.host, h'.script.trans h.script, h.txBusy ∘ h'.txBusy, h.cmdErr ∘ h'.cmdErr⟩

theorem State.SendsNothing.keeps_sendDiscipline {s t : State} (h : s.SendsNothing t) (hs : s.SendDiscipline) :
    t.SendDiscipline := by
  obtain ⟨hscript, hwait⟩ := hs
  exact ⟨h.script.trans hscript, fun hb => h.host ▸ hwait (h.txBusy hb)⟩

/-! ## Instructions -/

section Effects
variable {i : Instr} {s t : State}

/-- No instruction is a move of the host (R16). -/
theorem Effect.host_script_eq (h : Effect i s t) : t.host = s.host ∧ t.script = s.script := by
  cases h with
  | counted =>
    obtain ⟨-, -, e⟩ | ⟨-, e⟩ := countSample_cases s <;> rw [e] <;> exact ⟨rfl, rfl⟩
  | recorded =>
    obtain ⟨-, e⟩ | ⟨-, e⟩ := recordEdge_cases s (!s.capLevel) <;> rw [e] <;> exact ⟨rfl, rfl⟩
  | lastPulse p =>
    obtain ⟨-, e⟩ | ⟨-, e⟩ := transmissionEnd_cases (s.emit p) <;> rw [e] <;> exact ⟨rfl, rfl⟩
  | ended =>
    obtain ⟨-, e⟩ | ⟨-, e⟩ := transmissionEnd_cases s <;> rw [e] <;> exact ⟨rfl, rfl⟩
  | _ => exact ⟨rfl, rfl⟩

/-- R196: only SEND starts a transmission. -/
theorem Effect.txBusy_set (h : Effect i s t) (hs : s.txBusy = false) (ht : t.txBusy = true) :
    commandOp i = some 3#4 := by
  cases h with
  | sent hi => exact hi
  | _ => simp [hs] at ht

theorem isSendOrReserved_of_send (hi : commandOp i = some 3#4) : isSendOrReserved i = true := by
  simp [isSendOrReserved, hi]

theorem isSendOrReserved_of_reserved {op : BitVec 4} (hi : commandOp i = some op)
    (hop : 4 ≤ op.toNat ∨ i.WellFormed = false) : isSendOrReserved i = true := by
  obtain hop | hwf := hop
  · have hthree : 3 ≤ op.toNat := by omega
    simp [isSendOrReserved, hi, hthree]
  · simp [isSendOrReserved, hwf]

theorem Effect.sendsNothing (h : Effect i s t) (hi : isSendOrReserved i = false) : s.SendsNothing t := by
  obtain ⟨hhost, hscript⟩ := h.host_script_eq
  refine ⟨hhost, hscript, fun ht => ?_, fun ht => ?_⟩
  · by_contra hs
    have hsend := h.txBusy_set (Bool.eq_false_iff.mpr hs) ht
    simp [isSendOrReserved_of_send hsend] at hi
  · by_contra hs
    obtain ⟨op, hop, hres⟩ | ⟨hsend, -⟩ := h.cmdErr_set (Bool.eq_false_iff.mpr hs) ht
    · simp [isSendOrReserved_of_reserved hop hres] at hi
    · simp [isSendOrReserved_of_send hsend] at hi

end Effects

/-! ## Moves of the agents -/

theorem sendsNothing_passTurn (s : State) : s.SendsNothing s.passTurn := by
  unfold State.passTurn
  split <;> exact ⟨rfl, rfl, id, id⟩

theorem sendsNothing_nextLevel (s : State) : s.SendsNothing s.nextLevel.2 := by
  unfold State.nextLevel
  split <;> exact ⟨rfl, rfl, id, id⟩

theorem sendsNothing_exec {i : Instr} {s t : State} (hi : isSendOrReserved i = false) (h : exec i s = .next t) :
    s.SendsNothing t :=
  (exec_effect h).sendsNothing hi

/-- The environment, the transmitter and reset give no command (R86, R306). -/
theorem sendsNothing_runTurn {turn : Turn} {s t : State} (hturn : turn ≠ .host) (h : runTurn turn s = .next t) :
    s.SendsNothing t := by
  cases turn with
  | host => exact absurd rfl hturn
  | tick =>
    obtain ⟨-, e⟩ | ⟨-, e⟩ := tickTurn_cases s
    · cases e.symm.trans h
      exact .refl s
    · exact (sendsNothing_nextLevel s).trans (sendsNothing_exec rfl (e.symm.trans h))
  | tx =>
    simp only [runTurn, txTurn] at h
    split at h <;> exact sendsNothing_exec rfl h
  | rst => exact sendsNothing_exec (i := .rst) rfl h
  | unseen =>
    simp only [runTurn, unseenTurn] at h
    split at h <;> cases h
    · exact sendsNothing_nextLevel s
    · exact .refl s

/-! ## The software's accesses -/

/-- R252, R260: at every place but the one of SEND the loop reads, stores the code, or gives the command DECODE or RESUME. -/
theorem isSendOrReserved_request {pc : LoopPc} {c : Code} (h : pc.request = some c)
    (hpc : ∀ code avail, pc ≠ .txSend code avail) : isSendOrReserved (decode c) = false := by
  cases pc with
  | off | loopStart | serial | printReport => cases h
  | txWrite code => cases h; rfl
  | txSend code avail => exact absurd rfl (hpc code avail)
  | readRaw r =>
    cases h
    have hread := decodeBus_read (.raw (BitVec.ofNat 9 r.raw.length)) rfl 0#32
    exact (congrArg isSendOrReserved hread).trans rfl
  | _ => cases h; rfl

theorem sendsNothing_performAccess {c : Code} {s t : State} (hc : isSendOrReserved (decode c) = false)
    (h : performAccess c s = .next t) : s.SendsNothing t := by
  obtain h | ⟨addr, -, rfl⟩ := endAccess_eq_next h
  · exact sendsNothing_exec hc h
  · exact ⟨rfl, rfl, id, id⟩

/-- R196: a SEND written to CMD with no transmission in progress. -/
theorem performAccess_send_of_not_busy {s : State} (hb : s.txBusy = false) :
    performAccess (.write Reg.cmd.offset 3#32) s
      = .next { s with txFrame := necFrame s.txCode, txIdx := 0#7, txBusy := true } := by
  have hsend : performAccess (.write Reg.cmd.offset 3#32) s = endAccess s (execSend s) := rfl
  rw [hsend, execSend, if_neg (ne_true_of_eq_false hb)]
  rfl

/-! ## A step of the software -/

/-- A step without an access changes the software alone, and one with an access is the access and what the software makes of
the word it read. -/
theorem softwareStep_cases {s t : State} (h : softwareStep s = .next t) :
    (s.host.pc.request = none ∧ t = { s with host := s.host.think s.cfg })
    ∨ ∃ c u, s.host.pc.request = some c ∧ performAccess c s = .next u
        ∧ t = { u with host := u.host.afterAccess u.lastRead } := by
  unfold softwareStep at h
  split at h
  · cases h
    exact .inl ⟨‹_›, rfl⟩
  · rename_i c hc
    split at h <;> cases h
    exact .inr ⟨c, _, hc, ‹_›, rfl⟩

/-- R267: while its transmission is in progress the software reads STATUS, finds TX_BUSY set and waits on. -/
theorem softwareStep_of_waiting {s : State} {code : Word} {avail : List Byte} (hpc : s.host.pc = .txWait code avail)
    (hb : s.txBusy = true) : softwareStep s = .next (s.respond s.statusWord) := by
  have hbit : s.statusWord.getLsbD 4 = true := (statusWord_getLsbD_txBusy s).trans hb
  have hafter : s.host.afterAccess s.statusWord = s.host := by
    simp only [HostSoftware.afterAccess, hpc, hbit, if_true]
  simp only [softwareStep, hpc, LoopPc.request, performAccess_readStatus, lastRead_respond, State.respond_host, hafter]
  rfl

/-- R260: the software's SEND starts the transmission that the software then waits for. -/
theorem softwareStep_of_send {s : State} {code : Word} {avail : List Byte} (hpc : s.host.pc = .txSend code avail)
    (hb : s.txBusy = false) :
    softwareStep s = .next { s with
      txFrame := necFrame s.txCode, txIdx := 0#7, txBusy := true, host := { s.host with pc := .txWait code avail } } := by
  simp only [softwareStep, hpc, LoopPc.request, performAccess_send_of_not_busy hb, HostSoftware.afterAccess]

/-- Anywhere else the software starts no transmission, whatever it does with its own state. -/
theorem softwareStep_idle {s t : State} (hb : s.txBusy = false) (hpc : ∀ code avail, s.host.pc ≠ .txSend code avail)
    (h : softwareStep s = .next t) :
    t.script = s.script ∧ t.txBusy = false ∧ (t.cmdErr = true → s.cmdErr = true) := by
  obtain ⟨-, rfl⟩ | ⟨c, u, hc, hu, rfl⟩ := softwareStep_cases h
  · exact ⟨rfl, hb, id⟩
  · have hquiet := sendsNothing_performAccess (isSendOrReserved_request hc hpc) hu
    exact ⟨hquiet.script, Bool.eq_false_iff.mpr fun ht => ne_true_of_eq_false hb (hquiet.txBusy ht), hquiet.cmdErr⟩

/-- R267: the three kinds of place the software can be in: it waits, it sends, or neither. -/
theorem softwareStep_keeps_sendDiscipline {s t : State} (hs : s.SendDiscipline) (h : softwareStep s = .next t) :
    t.SendDiscipline ∧ (t.cmdErr = true → s.cmdErr = true) := by
  obtain ⟨hscript, hwait⟩ := hs
  cases hb : s.txBusy with
  | true =>
    obtain ⟨code, avail, hpc⟩ := hwait hb
    cases (softwareStep_of_waiting hpc hb).symm.trans h
    exact ⟨⟨hscript, fun _ => ⟨code, avail, hpc⟩⟩, id⟩
  | false =>
    by_cases hsend : ∃ code avail, s.host.pc = .txSend code avail
    · obtain ⟨code, avail, hpc⟩ := hsend
      cases (softwareStep_of_send hpc hb).symm.trans h
      exact ⟨⟨hscript, fun _ => ⟨code, avail, rfl⟩⟩, id⟩
    · have hpc : ∀ code avail, s.host.pc ≠ .txSend code avail := fun code avail e => hsend ⟨code, avail, e⟩
      obtain ⟨hkept, hidle, herr⟩ := softwareStep_idle hb hpc h
      exact ⟨⟨hkept.trans hscript, fun hbusy => by simp [hidle] at hbusy⟩, herr⟩

/-! ## The obligation -/

/-- Settles O58: the turn passes without a command, and then either the software moves, having no host program before it, or
an agent that gives no command. How the software's loop is cut into steps is the model's choice (log 8). -/
theorem softwareNeverSendsWhileBusy : Obligations.SoftwareNeverSendsWhileBusy := by
  intro s t hs h
  have hpass := sendsNothing_passTurn s
  have hs' := hpass.keeps_sendDiscipline hs
  by_cases hturn : s.nextTurn = .host
  · have hscript : s.passTurn.script = [] := hs'.1
    rw [step, hturn, runTurn, hostTurn, hscript] at h
    obtain ⟨ht, herr⟩ := softwareStep_keeps_sendDiscipline hs' h
    exact ⟨ht, hpass.cmdErr ∘ herr⟩
  · have hquiet := hpass.trans (sendsNothing_runTurn hturn h)
    exact ⟨hquiet.keeps_sendDiscipline hs, hquiet.cmdErr⟩

end Sys2Proof.Machine
end

section
/-! PROOFS. The uppercase hexadecimal spelling and the numeric parser (R262, R263): the spelling's digits without leading
zeros, the value the parser gives them, and the length check after `0x`. -/

namespace Sys2Proof.Machine

/-! ## Digit values -/

/-- The value of digits in base 16, most significant first. -/
def hexValue (ds : List Nat) : Nat := ds.foldl (· * 16 + ·) 0

/-- The digit values that `hexText` spells. -/
def hexDigits (v : Word) : List Nat :=
  match (nibbles v).dropWhile (· = 0) with
  | [] => [0]
  | ds => ds

theorem hexText_eq_map (v : Word) : hexText v = (hexDigits v).map hexDigit := by
  unfold hexText hexDigits
  cases (nibbles v).dropWhile (· = 0) <;> rfl

theorem hexValue_dropWhile (ds : List Nat) : hexValue (ds.dropWhile (· = 0)) = hexValue ds := by
  induction ds with
  | nil => rfl
  | cons d ds ih =>
    by_cases hd : d = 0
    · subst hd
      exact ih
    · rw [List.dropWhile_cons_of_neg (by simpa using hd)]

/-- A digit appended to the digits above it. -/
theorem div_pow_succ_mul_add_digit (n i : Nat) : n / 16 ^ (i + 1) * 16 + n / 16 ^ i % 16 = n / 16 ^ i := by
  rw [Nat.pow_succ, ← Nat.div_div_eq_div_mul, Nat.div_add_mod']

/-- The eight digits of a word are its value. -/
theorem hexValue_nibbles (v : Word) : hexValue (nibbles v) = v.toNat := by
  have htop : v.toNat / 16 ^ (7 + 1) = 0 := Nat.div_eq_of_lt v.isLt
  calc hexValue (nibbles v)
      = [7, 6, 5, 4, 3, 2, 1, 0].foldl (fun acc i => acc * 16 + v.toNat / 16 ^ i % 16) (v.toNat / 16 ^ (7 + 1)) := by
        rw [hexValue, nibbles, List.foldl_map, htop]
    _ = v.toNat / 16 ^ 0 := by simp only [List.foldl_cons, List.foldl_nil, div_pow_succ_mul_add_digit]
    _ = v.toNat := by rw [Nat.pow_zero, Nat.div_one]

/-- The spelling's digits are those of the word without leading zeros, or the one digit 0 of the word 0. -/
theorem hexDigits_cases (v : Word) :
    (v.toNat = 0 ∧ hexDigits v = [0])
    ∨ ∃ d ds, d ≠ 0 ∧ hexDigits v = d :: ds ∧ (nibbles v).dropWhile (· = 0) = d :: ds := by
  unfold hexDigits
  cases hdrop : (nibbles v).dropWhile (· = 0) with
  | nil =>
    refine .inl ⟨?_, rfl⟩
    rw [← hexValue_nibbles, ← hexValue_dropWhile, hdrop]
    rfl
  | cons d ds =>
    refine .inr ⟨d, ds, ?_, rfl, rfl⟩
    have hhead := List.head_dropWhile_not (l := nibbles v) (p := (· = 0)) (by simp [hdrop])
    simpa [hdrop] using hhead

theorem hexValue_hexDigits (v : Word) : hexValue (hexDigits v) = v.toNat := by
  obtain ⟨hv, h⟩ | ⟨d, ds, -, h, hdrop⟩ := hexDigits_cases v
  · rw [h, hv]
    rfl
  · rw [h, ← hdrop, hexValue_dropWhile, hexValue_nibbles]

theorem lt_of_mem_hexDigits {v : Word} {d : Nat} (hd : d ∈ hexDigits v) : d < 16 := by
  obtain ⟨-, h⟩ | ⟨e, ds, -, h, hdrop⟩ := hexDigits_cases v
  · rw [h, List.mem_singleton] at hd
    omega
  · rw [h, ← hdrop] at hd
    obtain ⟨i, -, rfl⟩ := List.mem_map.mp ((List.dropWhile_sublist _).subset hd)
    exact Nat.mod_lt _ (by decide)

theorem hexDigits_ne_nil (v : Word) : hexDigits v ≠ [] := by
  obtain ⟨-, h⟩ | ⟨_, _, -, h, -⟩ := hexDigits_cases v <;> simp [h]

/-- Further digits only raise a value. -/
theorem le_foldl_hex (acc : Nat) (ds : List Nat) : acc ≤ ds.foldl (· * 16 + ·) acc := by
  induction ds generalizing acc with
  | nil => exact Nat.le_refl acc
  | cons d ds ih =>
    have hrest := ih (acc * 16 + d)
    rw [List.foldl_cons]
    omega

/-- A value has two digits or more exactly from 16 on. -/
theorem two_le_length_hexDigits_iff (v : Word) : 2 ≤ (hexDigits v).length ↔ 16 ≤ v.toNat := by
  have hlt := fun d => lt_of_mem_hexDigits (v := v) (d := d)
  have hvalue := hexValue_hexDigits v
  obtain ⟨hv, h⟩ | ⟨d, ds, hd, h, -⟩ := hexDigits_cases v
  · simp [h, hv]
  · rw [h] at hlt hvalue ⊢
    cases ds with
    | nil =>
      have hd16 : d < 16 := hlt d List.mem_cons_self
      have hone : 0 * 16 + d = v.toNat := hvalue
      simp only [List.length_singleton]
      omega
    | cons e rest =>
      have hmore : (0 * 16 + d) * 16 + e ≤ v.toNat := hvalue ▸ le_foldl_hex ((0 * 16 + d) * 16 + e) rest
      simp only [List.length_cons]
      omega

/-! ## The parser on the digits' spelling -/

/-- R262, R263: the digit of a value has that value. -/
theorem digitValue_hexDigit {d : Nat} (hd : d < 16) : digitValue 16 (hexDigit d) = some d := by
  have hall : ∀ d < 16, digitValue 16 (hexDigit d) = some d := by decide
  exact hall d hd

/-- No digit is the `x` or `X` that may follow a first `0`. -/
theorem hexDigit_ne_x {d : Nat} (hd : d < 16) : hexDigit d ≠ 120#8 ∧ hexDigit d ≠ 88#8 := by
  have hall : ∀ d < 16, hexDigit d ≠ 120#8 ∧ hexDigit d ≠ 88#8 := by decide
  exact hall d hd

theorem digitsValue_map_hexDigit {ds : List Nat} (hds : ∀ d ∈ ds, d < 16) (acc : Nat) :
    digitsValue 16 acc (ds.map hexDigit) = some (ds.foldl (· * 16 + ·) acc) := by
  induction ds generalizing acc with
  | nil => rfl
  | cons d ds ih =>
    obtain ⟨hd, hrest⟩ := List.forall_mem_cons.mp hds
    simp only [List.map_cons, digitsValue, digitValue_hexDigit hd, List.foldl_cons]
    exact ih hrest _

theorem hasHexPrefix_map_hexDigit {ds : List Nat} (hds : ∀ d ∈ ds, d < 16) : hasHexPrefix (ds.map hexDigit) = false := by
  match ds with
  | [] => rfl
  | [_] => rfl
  | _ :: e :: _ =>
    obtain ⟨hlower, hupper⟩ := hexDigit_ne_x (hds e (by simp))
    simp [hasHexPrefix, hlower, hupper]

/-! ## The parser on the spelling of a word -/

theorem parseDigits_hexText (v : Word) : parseDigits 16 (hexText v) = some v := by
  have hvalue : digitsValue 16 0 ((hexDigits v).map hexDigit) = some v.toNat := by
    rw [digitsValue_map_hexDigit fun _ => lt_of_mem_hexDigits]
    exact congrArg some (hexValue_hexDigits v)
  rw [hexText_eq_map, parseDigits, if_neg (by simpa using hexDigits_ne_nil v), hvalue]
  simp [v.isLt]

theorem hasHexPrefix_hexText (v : Word) : hasHexPrefix (hexText v) = false := by
  rw [hexText_eq_map]
  exact hasHexPrefix_map_hexDigit fun _ => lt_of_mem_hexDigits

theorem parseNumber_hex_of_not_prefix {text : List Byte} (h : hasHexPrefix text = false) :
    parseNumber text 16 = parseDigits 16 text := by
  simp [parseNumber, h]

/-- R262: after `0x` one digit is too short. -/
theorem parseNumber_hexPrefix_append (digits : List Byte) :
    parseNumber (hexPrefix ++ digits) 16 = if 2 ≤ digits.length then parseDigits 16 digits else none := by
  have hprefix : hasHexPrefix (hexPrefix ++ digits) = true := rfl
  have hdrop : (hexPrefix ++ digits).drop 2 = digits := rfl
  have hlength : (hexPrefix ++ digits).length = digits.length + 2 := rfl
  rw [parseNumber, if_neg (by decide), if_pos hprefix, if_neg (by decide), hdrop, hlength]
  by_cases hlong : 2 ≤ digits.length
  · rw [if_neg (by omega), if_pos hlong]
  · rw [if_pos (by omega), if_neg hlong]

/-! ## The obligation -/

/-- Settles O59: the digits of the spelling give the value back, and the length check asks for two of them. -/
theorem parserInvertsTheHexSpelling : Obligations.ParserInvertsTheHexSpelling := by
  intro v
  have hlength : (hexText v).length = (hexDigits v).length := by
    rw [hexText_eq_map, List.length_map]
  refine ⟨?_, ?_⟩
  · rw [parseNumber_hex_of_not_prefix (hasHexPrefix_hexText v), parseDigits_hexText]
  · simp only [parseNumber_hexPrefix_append, parseDigits_hexText, hlength, two_le_length_hexDigits_iff]

end Sys2Proof.Machine
end

section
/-! PROOFS. The dispatcher's mode switches (R256, R258, R259, R261). -/

namespace Sys2Proof.Machine

/-- Settles O60: the three commands are three different lines, which the dispatcher tries in turn; the mode decides the rest.
The text of a confirmation is left open (log 10). -/
theorem modeSwitchesAreIdempotent : Obligations.ModeSwitchesAreIdempotent := by
  intro h line
  have hrx : modeRxLine ≠ helpLine := by decide
  obtain ⟨htxHelp, htxRx⟩ : modeTxLine ≠ helpLine ∧ modeTxLine ≠ modeRxLine := by decide
  refine ⟨fun hm => ?_, fun hm => ?_, fun hm => ?_, fun hm => ?_, fun hm hhelp hnrx hntx => ?_⟩
  · rw [dispatchLine, if_neg htxHelp, if_neg htxRx, if_pos rfl, hm]
  · rw [dispatchLine, if_neg htxHelp, if_neg htxRx, if_pos rfl, hm]
  · rw [dispatchLine, if_neg hrx, if_pos rfl, hm]
  · rw [dispatchLine, if_neg hrx, if_pos rfl, hm]
  · rw [dispatchLine, if_neg hhelp, if_neg hnrx, if_neg hntx, hm]

end Sys2Proof.Machine
end

section
/-! PROOFS. The exception BusError (R300, R302, R343; log 7): the fault of a refused access, and the machine after it. -/

namespace Sys2Proof.Machine

/-! ## The fault -/

/-- Settles O18: on each of the six rows `exec` is `busErrorAt` at the access's offset, for reads and writes alike. -/
theorem refusedAccessesAreBusErrors : Obligations.RefusedAccessesAreBusErrors :=
  fun _ _ _ => ⟨rfl, rfl, rfl, rfl, rfl, rfl⟩

/-! ## The machine goes on -/

/-- The access at the head of the host's program is performed once, and the program goes on after it (R112). -/
theorem scriptStep_access (desc : Descriptor) (data : Word) (rest : List HostOp) (s : State) :
    scriptStep (.access desc data) rest s = performAccess (.bus desc data) { s with script := rest } := rfl

/-- R300, R302: a refused access, of whatever size and alignment, ends in the state it began in, with its error response
recorded. -/
theorem performAccess_refused {desc : Descriptor} (data : Word) (s : State)
    (h : desc.toNat / 8192 ≠ 2 ∨ desc.toNat % 4 ≠ 0) :
    performAccess (.bus desc data) s = .next (s.recordBusError (s.cfg.ircBase + desc.toNat % 4096)) := by
  rw [performAccess_bus, exec_decodeBus_refused data s h, endAccess]

/-- Settles O53: the turn and the access are used up, and the refused access itself adds only its error response. -/
theorem busErrorChangesNoBlockState : Obligations.BusErrorChangesNoBlockState := by
  intro s later desc data rest hagenda hscript hrefused
  rw [step_of_host_script hagenda hscript, scriptStep_access, performAccess_refused data _ hrefused,
    State.recordBusError]

end Sys2Proof.Machine
end

section
/-! PROOFS. Reset (R30, R330): the step RST, what the registers answer right after it, and the invariant there. -/

namespace Sys2Proof.Machine

/-- Settles O37: the step's next state is `resetBlock`, whose `tick_phase` is the free value drawn next (log 4). -/
theorem resetRestoresEveryElement : Obligations.ResetRestoresEveryElement :=
  fun s => ⟨Config.freeTickPhase s.freeCount, rfl⟩

/-! ## The registers right after reset -/

/-- R85, R133: reads one after another are answered as if each were made in the state the sequence begins in. -/
theorem execAll_of_isRead {is : List Instr} (his : ∀ i ∈ is, isRead i = true) (s : State) :
    execAll is s = .next { s with reads := s.reads ++ is.map s.answer } := by
  induction is generalizing s with
  | nil => simp [execAll]
  | cons i rest ih =>
    obtain ⟨hi, hrest⟩ := List.forall_mem_cons.mp his
    have hanswers : (s.respond (s.answer i)).answer = s.answer := funext (State.answer_respond s _)
    rw [execAll_cons rest (exec_of_isRead hi s), ih hrest, hanswers]
    simp [State.respond]

/-- R330: right after reset every read but that of CAPS is answered with 0. -/
theorem answer_resetWith (cfg : Params) {i : Instr} (hi : i ≠ .rdCaps) : (State.resetWith cfg).answer i = 0#32 := by
  cases i with
  | rdCaps => exact absurd rfl hi
  | rdRaw k =>
    have hempty : (State.resetWith cfg).buf.length ≤ k.toNat := Nat.zero_le _
    exact rawWord_of_le hempty
  | rdStatus => exact BitVec.eq_of_toNat_eq (statusWord_toNat _)
  | rdResInfo => exact BitVec.eq_of_toNat_eq (resInfoWord_toNat _)
  | _ => rfl

/-- Settles O38: the reset values stand in the definition; of the nine reads only the first is one of CAPS. -/
theorem resetStateReadsAsTheSpecSays : Obligations.ResetStateReadsAsTheSpecSays := by
  intro cfg k
  refine ⟨rfl, rfl, rfl, rfl, rfl, rfl, rfl, (State.resetWith cfg).capsWord, capsWord_toNat _, ?_⟩
  have hcaps : (State.resetWith cfg).answer .rdCaps = (State.resetWith cfg).capsWord := rfl
  have hreads : (State.resetWith cfg).reads = [] := rfl
  rw [execAll_of_isRead (by simp [isRead]), hreads]
  simp [hcaps, answer_resetWith, List.replicate]

/-! ## The invariant right after reset -/

/-- The reset state is idle: it has no entries, no transmission and no valid result, and an Unknown result's registers. -/
theorem inv_resetWith {cfg : Params} (hv : cfg.Valid) : (State.resetWith cfg).Inv := by
  have hcap : (State.resetWith cfg).CaptureOk := (captureOk_idle_iff rfl).mpr ⟨rfl, rfl⟩
  have htx : (State.resetWith cfg).TxOk := ⟨(fun hbusy => by cases hbusy), fun _ => rfl⟩
  have hheld : (State.resetWith cfg).HoldsItsResult := fun hvalid => by cases hvalid
  have hregs : (State.resetWith cfg).ResultRegistersOk :=
    ⟨fun _ => rfl, fun _ => ⟨rfl, rfl, rfl⟩, fun hovf => by cases hovf⟩
  exact ⟨hv, hcap, entriesOk_nil rfl, htx, (resultOk_iff _).mpr ⟨hheld, hregs⟩⟩

/-- Settles O56: the invariant part by part, and the constraints of R7 on the reference values. -/
theorem resetStateMeetsTheInvariant : Obligations.ResetStateMeetsTheInvariant :=
  ⟨fun _ => inv_resetWith, rfl, by decide⟩

end Sys2Proof.Machine
end
